-- ==== Sys2Proof/Word.lean ====
section
/-! DEFINITION. The word types of the device and their plainest arithmetic. -/

namespace Sys2Proof

/-- One byte. Multibyte fields are little-endian (R15). -/
abbrev Byte := BitVec 8
/-- A flag counter of a core (R97). -/
abbrev W16 := BitVec 16
/-- An FP32 value or another 32-bit word. -/
abbrev W32 := BitVec 32
/-- A base register or an address in 48 bits (R97, R187). -/
abbrev W48 := BitVec 48
/-- A register of the address map, one access unit (R475). -/
abbrev W64 := BitVec 64
/-- A macro-op descriptor (R99). -/
abbrev W128 := BitVec 128

end Sys2Proof
end

