-- ==== Sys2Proof/Syntax.lean ====
section
/-! DEFINITION. The commands of the device: one constructor per row of the opcode table, with the row's operands.
Where the row is an event whose cause is physical (a sample, a measurement, the outcome of a test), its operand is that cause. -/

namespace Sys2Proof

/-- A switch with reduction adders (R170). -/
inductive SwitchName where
  | leaf (dc : Nat) | dieSpine (die plane : Nat) | pkgSpine (plane : Nat)
  deriving DecidableEq, Repr

/-- What sends packets on a core's vertical channel (R155): its VLD and VST, its cluster's DMA engine, and its column's spring queue. -/
inductive VUser where
  | transfer | dma | spring
  deriving DecidableEq, Repr

/-- A hop that crosses a die boundary, with its CRC (R152, R157, R178, R275 kind 6): a leaf's uplink to a plane; a die-spine plane's link to
the package spine; a leaf's link to its column memory port; a package-spine plane's link to the lead I/O die (`die` 0) or to port I/O die
`die` − 1. -/
inductive Hop where
  | leaf (dc plane : Nat)
  | spine (die plane : Nat)
  | column (dc : Nat)
  | io (die plane : Nat)
  deriving DecidableEq, Repr

/-- A translation unit (R193): of a cluster, of the lead I/O die, or of port I/O die `k`. -/
inductive UnitName where
  | cluster (dc : Nat) | leadIo | portDie (k : Nat)
  deriving DecidableEq, Repr

/-- A rail a regulator can fault on (R359, R406). -/
inductive Rail where
  | vcore (die region : Nat) | vtarn (stack : Nat) | vmem (stack : Nat) | vpp (stack : Nat) | vio (k : Nat) | serdes (die k : Nat)
  deriving DecidableEq, Repr

/-- What a tick of the cap controller finds besides its own counts (R376, R377), in watts: the unclassed draw, and what the links and memory classes
cannot bring within their grants by their own means. -/
structure CapSample where
  unclassed : Nat
  excess : Nat
  deriving DecidableEq, Repr

/-- One rail read over AVSBus in a 100 µs window (R378, R379): its bus and rail select, the sensed voltage in mV and the current in 0.1 A; whether the
read failed after two retries, and whether the regulator reports a status fault. -/
structure RailReading where
  bus : Nat
  sel : Nat
  mv : Nat
  amps : Int
  failed : Bool
  fault : Bool
  deriving DecidableEq, Repr

/-- One thermal sensor's reading in eighths of a degree, or a failed read (R385, R386): site and layer; a compute layer gives four. -/
structure SensorSample where
  site : Nat
  layer : Nat
  reading : Option Int
  deriving DecidableEq, Repr

/-- The readiness test of one physical lane (R334): codewords received, bits and symbols that the decoder corrected, uncorrectable codewords, and
bits of decoded messages off the PRBS31 sequence. -/
structure LaneTest where
  lane : Nat
  codewords : Nat
  bits : Nat
  symbols : Nat
  uncorr : Nat
  mismatches : Nat
  deriving DecidableEq, Repr

/-- A packet received at a hop (R152). `outside` names the hop of a packet that its sender's own command delivers (of the host, of Meridian, of a
neighbour, a control packet); where it is none the packet is one of the fabric's. -/
structure HopRx where
  outside : Option Hop
  crcOk : Bool
  deriving DecidableEq, Repr

/-- A packet received on a core's vertical channel (R153, R154). -/
structure VertRx where
  user : VUser
  crcOk : Bool
  deriving DecidableEq, Repr

/-- An aperture's interrupt (R283): whether one of its unsignalled records is `MODT` µs old. -/
structure IntrDue where
  ap : Nat
  aged : Bool
  deriving DecidableEq, Repr

/-- A lane marker that a port receives (R332): its physical lane and its message. -/
structure MarkerRx where
  port : Nat
  lane : Nat
  mark : Nat
  deriving DecidableEq, Repr

/-- The lane markers that a port receives as its lanes align (R332): (physical lane, message). -/
structure MarkerSet where
  port : Nat
  marks : List (Nat × Nat)
  deriving DecidableEq, Repr

/-- What a port's own receivers find in a retrain (R340): the lanes' tests, and the markers that align them. -/
structure RxFound where
  tests : List LaneTest
  marks : List (Nat × Nat)
  deriving DecidableEq, Repr

/-- The loss of every lane's markers at a port (R339): whether it is that the neighbour's package has been reset (R358). -/
structure MarkerLoss where
  port : Nat
  reset : Bool
  deriving DecidableEq, Repr

/-- An SMBus write-word as the tray sends it (R456): the 7-bit address, the command code, the word, and the packet error code where it sends one. -/
structure SmbusWrite where
  addr : Nat
  code : Nat
  word : BitVec 16
  pec : Option Nat
  deriving DecidableEq, Repr

/-- What a boot finds (R405 to R412, R381, R395): everything here is physical. -/
structure BootSample where
  /-- The boot is cut short while this step is in progress. -/
  cut : Option Nat
  /-- A step that fails for a physical cause, and its code (R409); code 0x03 with its rail (R406). -/
  fails : Option (Nat × Nat)
  rail : Option Rail
  /-- The helper that fails, by component kind 1 to 3, for code 0x02 (R442). -/
  helper : Nat
  /-- Whether the flash's SFDP offers 8D-8D-8D (R458). -/
  sfdp : Bool
  /-- Bytes that the flash holds now and that the device did not write: damage, wear, or what was programmed outside the device. -/
  flash : List (Nat × Nat)
  /-- Self-test: the physical columns that fail beyond what their spares absorb (die × 256 + column), and the physical core columns that fail (the
  same × 64 + core column). -/
  badColumns : List Nat
  badCores : List Nat
  /-- Port I/O dies that fail their self-test. -/
  deadPorts : List Nat
  /-- Sensors out of range at the self-test: stack, site, layer. -/
  badSensors : List (Nat × Nat × Nat)
  /-- Slack at OP0 of each region less its target, in steps (R381). -/
  slack : List Int
  /-- The fixed load of R395 over its last 5 s, by stack: the mean accepted compute value in 1/8 °C, the inlet in 1/16 °C, and the stack's power in W. -/
  load : List (Int × Int × Nat)
  /-- The cold-plate resistances that the same load fits, by stack × 48 + site, in 10⁻⁵ °C/W. -/
  plates : List Nat
  /-- Recorded hops that fail their retest (R277), as their entries of the soft-repair record (R275). -/
  badHops : List Nat
  /-- What the host programs as it enumerates the function in the boot (R278): the maximum payload size and the maximum read request size, as the powers
  of two by which they exceed 128 bytes. -/
  payload : Nat
  readReq : Nat
  deriving DecidableEq, Repr

/-- The commands and events of the device, in the order of the opcode table. -/
inductive Instr where
  /-- R94: A stream sequencer fetches the next 64-byte unit of its stream from its Tarn slice, following the loops that LPB and LPE mark. -/
  | seqFetch (dc seq : Nat)
  /-- R95: Once every bound core has a free queue entry, the sequencer issues one macro-op to all of those cores. -/
  | seqIssue (dc seq : Nat)
  /-- R108: The core completes a no-operation that lasts 1 + IMM cycles. -/
  | nop (lci : Nat)
  /-- R120: END ends the stream, and the sequencer fetches nothing more. -/
  | endOp (lci : Nat)
  /-- R118: LPB opens a loop of COUNT iterations and records the loop advances of the descriptors in its mask. -/
  | lpb (lci : Nat)
  /-- R118: LPE closes the innermost loop, adding 16 × STRIDE1 to the masked advances or restoring them when the loop exits. -/
  | lpe (lci : Nat)
  /-- R119: PRD sets the core's predicate in the form that SUB selects. -/
  | prd (lci : Nat)
  /-- R121: TRP stops the sequencer from issuing; each bound core completes its earlier macro-ops and then either traps or waits idle. -/
  | trp (lci : Nat)
  /-- R109: OPA accumulates the outer products of its DA and DB regions into the active accumulator bank. -/
  | opa (lci : Nat)
  /-- R110: ACZ clears the named accumulator bank to +0.0. -/
  | acz (lci : Nat)
  /-- R110: ACS exchanges the roles of the accumulator banks, or selects which bank is active. -/
  | acs (lci : Nat)
  /-- R110: ACD drains the named accumulator bank to the PSP as FP32. -/
  | acd (lci : Nat)
  /-- R87: QNT converts a 512-value region to a block format or BF16, recomputing or flagging on overflow and updating the scale entry. -/
  | qnt (lci : Nat)
  /-- R112: SCL loads or stores a range of scale-table entries, or applies the end-of-step adjustment to them. -/
  | scl (lci : Nat)
  /-- R113: VOP performs an element-wise vector sub-op over the DC region. -/
  | vop (lci : Nat)
  /-- R113: VRED writes the maximum or sum of each row in a fixed lane and tree order. -/
  | vred (lci : Nat)
  /-- R113: ASM performs an online-softmax step, merge or replay over score tiles, statistics and output. -/
  | asm (lci : Nat)
  /-- R113: RST writes the log-sum-exp of each row from the statistics. -/
  | rst (lci : Nat)
  /-- R113: RLD loads a statistics region from saved log-sum-exp values. -/
  | rld (lci : Nat)
  /-- R114: VLD copies a region from the cluster's Tarn slice into a scratchpad, optionally skewed or in broadcast form. -/
  | vld (lci : Nat)
  /-- R114: VST copies a local scratchpad region to the cluster's Tarn slice. -/
  | vst (lci : Nat)
  /-- R114: FIL fills a local region with a repeating 32-bit pattern. -/
  | fil (lci : Nat)
  /-- R114: CPY copies one local region to another as if it read the whole source before writing. -/
  | cpy (lci : Nat)
  /-- R115: PUT writes a local region to remote scratchpad space or to partition-virtual memory, optionally with notify. -/
  | put (lci : Nat)
  /-- R115: RPUT sends reduction packets that add a local region into another core's PSP. -/
  | rput (lci : Nat)
  /-- R115: GET reads a remote region into a local region. -/
  | get (lci : Nat)
  /-- R144: WOP opens or replaces a remote-write window with a range, scope and epoch. -/
  | wop (lci : Nat)
  /-- R147: WCL takes the close point of a window and marks the window closing and held. -/
  | wcl (lci : Nat)
  /-- R147: Once every packet admitted before the close point has committed, WCL completes and clears CLOSING. -/
  | wclComplete (lci : Nat)
  /-- R116: BAR is dispatched as a barrier of the given scope and sequencer mask. -/
  | bar (lci : Nat)
  /-- R116: A core arrives at its barrier once its earlier VST, PUT, RPUT and SIG have been committed. -/
  | barrierArrive (lci : Nat)
  /-- R116: When every participant has arrived, the barrier releases them, with the cluster release stagger. -/
  | barrierRelease (bid : Nat)
  /-- R117: SIG requests an increment of a flag of a target core. -/
  | sig (lci : Nat)
  /-- R176: A SIG or a PUT notification is sent on VC0 once the answers it waits for have arrived, and then raises the target flag. -/
  | sigDeliver (lci k : Nat)
  /-- R117: WFL waits until a flag reaches a count. -/
  | wfl (lci : Nat)
  /-- R117: The flag reaches the count, and WFL subtracts it atomically and completes. -/
  | wflSatisfied (lci : Nat)
  /-- R117: The timeout of WFL expires, and the core takes the stopping fault WFL_TIMEOUT. -/
  | wflTimeout (lci : Nat)
  /-- R122: SPQ submits a spring sequence descriptor to the column's spring queue. -/
  | spq (lci : Nat)
  /-- R104: A macro-op that took time completes in its unit and releases its interlocks and unit slot. -/
  | macroOpComplete (lci op : Nat)
  /-- R120: A bound core completes END once its macro-ops and remote writes are settled, and returns to IDLE. -/
  | coreEndComplete (lci : Nat)
  /-- R121: When every bound core has reached the TRP, the sequencer enters TRAPPED and Meridian receives one trap event. -/
  | trapReached (dc seq : Nat) (oneSec : Bool)
  /-- R145: A remote write packet reaches its owner core, which admits it or drops it at its check point. -/
  | writePacketArrive (pid : Nat)
  /-- R146: An admitted packet's line is written, and its COMMIT answer is sent. -/
  | packetCommit (lci pid : Nat)
  /-- R141: A remote read request reaches a core port and is answered with the line contents. `upset`: the cells that have failed in the words it
  reads, (word of the window, bit position, and the value at which the cell sticks from now on, or none for a cell that flips once). -/
  | remoteReadArrive (pid : Nat) (upset : List (Nat × Nat × Option Bool))
  /-- R173: A reduction packet reaches its destination core port and is added into the line as one atomic write. -/
  | reductionPacketArrive (pid : Nat)
  /-- R170: A switch combines two matching reduction packets waiting in one output queue and records the pair in its answer table. -/
  | reductionCombine (sw : SwitchName) (a b : Nat)
  /-- R172: An answer reaches a switch or a source; answer-table switches copy it to each combined contributor. -/
  | fabricAnswer (pid : Nat)
  /-- R163: A read response reaches the requesting endpoint, and its data are written. -/
  | readResponseArrive (pid : Nat)
  /-- R152: A packet arrives at a die-crossing hop, where its CRC is checked, with retry or a hard fabric fault. `pid` is the number of
  a packet of the fabric's. -/
  | fabricHopReceive (pid : Nat) (rx : HopRx)
  /-- R154: A vertical-channel packet is received, with CRC check and retry, or an uncorrectable transfer after three retries. -/
  | verticalPacketReceive (lci : Nat) (rx : VertRx)
  /-- R168: Once all bound cores have dispatched a broadcast VLD, the cluster broadcast bus takes it and delivers it. -/
  | broadcastVldStart (dc seq : Nat)
  /-- R186: A write reaches a Tarn word or DRAM word through a column port and is applied or merged atomically. -/
  | memoryWriteArrive (pid : Nat)
  /-- R208: A read reaches a Tarn or DRAM word and returns data, zeros for unwritten memory, or an error. `upset`: the symbol errors that have struck
  the words it reads, (word, position, difference, whether those bits stick). -/
  | memoryReadArrive (pid : Nat) (upset : List (Nat × Nat × Nat × Bool)) (lost : Bool)
  /-- R211: A first write that waited for a free fill entry takes one when it frees. -/
  | fillEntryWait (pid : Nat)
  /-- R210: A page's fill has written every remaining word, so the page's valid bit is set and its entry freed. -/
  | dramFillComplete (page : Nat)
  /-- R266: The bank writes the corrected word back at its next free cycle, unless a newer write intervened. -/
  | correctedWriteback (word : Nat)
  /-- R270: Patrol scrub reads the next valid word at the lowest priority and corrects or poisons it. `upset`: the symbol errors that have struck it,
  (position, difference, whether those bits stick). -/
  | patrolScrubRead (stack die : Nat) (upset : List (Nat × Nat × Bool))
  /-- R203: A bank's refresh interval expires, and the bank refreshes or is postponed by a spring step. -/
  | refreshDue (stack mdie column bank : Nat)
  /-- R204: Readings have stayed at or below 83 °C for 1 ms, so doubled refresh ends. -/
  | dieRefHotClear (stack mdie : Nat)
  /-- R219: The spring queue accepts a submission once it has a free entry and the submitter's writes are answered, checking the descriptor's form. -/
  | springQueueAccept (dc k : Nat)
  /-- R214: The permit of a column and die is granted round-robin to a unit with a ready step, which starts the step. -/
  | springPermitGrant (dc mdie : Nat)
  /-- R226: After the owed refreshes are done, the pre-empted step resumes and keeps its permit. -/
  | springStepResume (dc mdie : Nat)
  /-- R224: A spring step ends, writes its results and releases its banks and the permit. -/
  | springStepEnd (dc mdie : Nat)
  /-- R237: Meridian writes SPR_SUBMIT to submit a descriptor that names physical addresses. -/
  | sprSubmit (dc pa : Nat)
  /-- R238: A write of SPR_CTRL.ABORT aborts every sequence of the queue. -/
  | sprCtrlAbort (dc : Nat)
  /-- R199: A write of CLU_DMA_CTRL.START starts a DMA chain unless the engine is running or waiting. -/
  | cluDmaStart (dc : Nat)
  /-- R199: A write of CLU_DMA_CTRL.STOP ends the chain after the row in progress, or ends a flag wait. -/
  | cluDmaStop (dc rows : Nat)
  /-- R199: The flag a DMA iteration waits on reaches WCOUNT and is taken atomically. -/
  | dmaFlagWaitSatisfied (dc : Nat)
  /-- R199: A DMA iteration finishes copying its rows, signals, and the engine moves on or ends the chain. -/
  | dmaIterationComplete (dc : Nat)
  /-- R196: A translation miss finishes its table walk and fills the look-aside buffer or answers a fault. -/
  | translationWalkComplete (walk : Nat)
  /-- R195: A write of CLU_XLAT_ROOT sets the translation root and invalidates the unit's translations. -/
  | cluXlatRootWrite (dc : Nat) (v : W64)
  /-- R197: A write of CLU_XLAT_INV with ALL set invalidates every translation of the cluster. -/
  | cluXlatInvAll (dc : Nat)
  /-- R197: A write of CLU_XLAT_INV with ALL clear invalidates the page that contains VA. -/
  | cluXlatInvPage (dc : Nat) (v : W64)
  /-- R198: An invalidation completes once no access uses the removed translation, and BUSY clears. -/
  | xlatInvComplete (unit : UnitName)
  /-- R252: A write of KVW_CFG or KVW_TABLES takes effect and empties the look-aside buffer, or is ignored while the cluster is busy. -/
  | kvwConfigWrite (dc : Nat) (tables : Bool) (v : W64)
  /-- R256: A KV walker miss reads the list and pool entries and completes its translation. -/
  | kvWalkComplete (walk : Nat)
  /-- R137: A write of CLU_SPM_PWR powers scratchpad halves up or down, or is ignored with IGN set. -/
  | cluSpmPwrWrite (dc : Nat) (v : W64)
  /-- R137: A half finishes powering down or up, and BUSY clears. -/
  | spmPowerChangeComplete (dc : Nat)
  /-- R96: A write of CORE_BIND binds the core to a sequencer if the core is IDLE, and otherwise sets BWI. -/
  | coreBindWrite (lci : Nat) (v : W64)
  /-- R191: A write of STK_MEM_CFG.CLSIZE changes the column-local size while the stack is in no partition. -/
  | stkMemCfgWrite (stack : Nat) (v : W64)
  /-- R272: A write of MEM_LOG_CTRL.CLR empties the correctable-error log table and its counts. -/
  | memLogCtrlClr (stack : Nat)
  /-- R475: A write to a register without behaviour of its own updates its access units, or is refused with ADDRESS when it covers part of a unit. -/
  | registerWrite (bar0 : Bool) (addr : Nat) (bytes : List Byte)
  /-- R286: A host PCIe write lands 16-byte units in an aperture slot, or is dropped and counted. -/
  | apertureWrite (off : Nat) (bytes : List Byte)
  /-- R287: The device takes packet NEXT once all its units have landed and checks it under the order of R306. -/
  | packetTake (ap : Nat)
  /-- R295: A reply record is written to the ring once space allows, in two posted writes. -/
  | replyRecordWrite (ap : Nat)
  /-- R300: A queued event is written to its aperture's ring, or is lost and later reported by EVENTS_LOST. -/
  | eventRecordWrite (ap : Nat)
  /-- R283: An aperture signals its MSI-X vector when MODN records have accumulated or MODT expires. -/
  | msixInterrupt (x : IntrDue)
  /-- R297: The host returns ring space by writing AP_RING_HEAD, or the write is ignored with HEADERR set. -/
  | apRingHeadWrite (ap v : Nat)
  /-- R282: A write of AP_CTRL.EN enables or disables the ring, resetting head and tail when it is enabled. -/
  | apCtrlEn (ap : Nat) (v : W64)
  /-- R305: A write of AP_CTRL.ABANDON ends the aperture's session. -/
  | apCtrlAbandon (ap : Nat)
  /-- R305: A function level reset ends every session and resets the aperture registers. -/
  | functionLevelReset
  /-- R403: A PERST_N or hot reset retrains the PCIe link with the effect of a function level reset. -/
  | pcieFundamentalReset
  /-- R279: The function enters D3hot and drops BAR writes. -/
  | pcieD3hotEnter
  /-- R279: The function returns to D0, restoring the aperture and ring registers. -/
  | pcieD0Return
  /-- R312: IDENTITY returns the revision, variant, serial and firmware versions, and optionally the certificate chain. -/
  | identity (ap : Nat)
  /-- R312: STATUS returns HIF_STATE, the active slot, the boot failure code and the unavailable stacks. -/
  | status (ap : Nat)
  /-- R431: ATTEST returns a signed device or partition attestation report. -/
  | attest (ap : Nat)
  /-- R432: KEX performs the key exchange and establishes a device or partition session. -/
  | kex (ap : Nat)
  /-- R305: SESSION_END ends the session, resetting the partition for a partition session. -/
  | sessionEnd (ap : Nat)
  /-- R470: LOG_READ returns entries of the event-log ring by DMA. -/
  | logRead (ap : Nat)
  /-- R312: LOG_CLEAR empties the event-log ring and the selected stacks' error logs. -/
  | logClear (ap : Nat)
  /-- R473: TELEMETRY returns the block of values that the selector names. -/
  | telemetry (ap : Nat)
  /-- R440: FW_WRITE writes image data into the inactive firmware slot. -/
  | fwWrite (ap : Nat)
  /-- R439: FW_ACTIVATE sets ACTIVE to the inactive slot. -/
  | fwActivate (ap : Nat)
  /-- R434: OWNER_LOCK queries, enrols, sets, clears or releases owner lock state by fuse burns. -/
  | ownerLock (ap : Nat)
  /-- R313: POWER_SET sets the cap, the priority order, the class floors and ceilings, and the ramp, with clamping. -/
  | powerSet (ap : Nat)
  /-- R400: THERMAL_SET sets the keep-warm floor, hold time and cooling rate. -/
  | thermalSet (ap : Nat)
  /-- R412: DEV_COMMIT trains the named ports and leads the device to READY. -/
  | devCommit (ap : Nat)
  /-- R316: PART_CREATE assigns stacks and apertures to a new partition in CONFIG. -/
  | partCreate (ap : Nat)
  /-- R316: PART_DESTROY resets the partition, ends its session and frees its stacks and apertures. -/
  | partDestroy (ap : Nat)
  /-- R314: PART_CONFIG writes the partition's cluster and translation settings. -/
  | partConfig (ap : Nat)
  /-- R311: PART_COMMIT moves the partition from CONFIG to READY. -/
  | partCommit (ap : Nat)
  /-- R311: PART_RUN moves the partition to RUNNING and starts its link chains. -/
  | partRun (ap : Nat)
  /-- R311: PART_DRAIN moves the partition to DRAINING with a time limit. -/
  | partDrain (ap : Nat)
  /-- R311: The partition's last stream, chain and sequence finishes, so the partition enters READY. -/
  | partDrainComplete (q : Nat)
  /-- R311: PART_DRAIN's time limit expires; its work is aborted and the partition enters READY. -/
  | partDrainExpire (q : Nat)
  /-- R416: PART_RESET stops the partition's work and begins draining its traffic. -/
  | partReset (ap : Nat)
  /-- R416: When the fabric drain ends, the reset switches clusters off, clears the valid stores and enters CONFIG. -/
  | partResetDrained (q : Nat)
  /-- R414: UNIT_RESET resets a core, or switches a cluster off for a cluster reset. -/
  | unitReset (ap : Nat)
  /-- R415: A cluster reset's off period ends, and the cluster's turn-on is due. -/
  | clusterResetOffEnd (dc : Nat)
  /-- R322: DMA_WRITE moves encrypted host data into device memory. -/
  | dmaWrite (ap : Nat)
  /-- R322: DMA_READ moves device memory to the host, encrypted. -/
  | dmaRead (ap : Nat)
  /-- R323: The lead I/O die serves one 4 KiB chunk of a host DMA, verifying or tagging it. -/
  | dmaChunk (ap : Nat) (data tag : List Byte)
  /-- R325: BCAST_WRITE verifies its data and sends them over a fabric broadcast tree. -/
  | bcastWrite (ap : Nat) (chunks : List (List Byte × List Byte))
  /-- R321: XLAT_LOAD writes a translation table image at a physical address. -/
  | xlatLoad (ap : Nat)
  /-- R312: XLAT_INVAL invalidates translations in every translation unit of the partition. -/
  | xlatInval (ap : Nat)
  /-- R320: REG_READ returns cluster control block registers. -/
  | regRead (ap : Nat)
  /-- R320: REG_WRITE writes one permitted cluster control register. -/
  | regWrite (ap : Nat)
  /-- R317: STREAM_START measures the stream, binds the named cores and starts the sequencer. -/
  | streamStart (ap : Nat)
  /-- R318: STREAM_CTRL resumes, ends or aborts a sequencer's stream. -/
  | streamCtrl (ap : Nat)
  /-- R319: SPRING_CTRL submits a spring sequence through Meridian, or aborts the queue. -/
  | springCtrl (ap : Nat)
  /-- R343: A flit arrives; the port checks its CRC and SEQ, accepts or rejects it, and processes ACK, NAK and credits.
  `errs`: what the channel did to the codeword that begins on each of the physical lanes `lanes`, as (symbol, difference). -/
  | flitReceive (port : Nat) (flit : List Byte) (lanes : List Nat) (errs : List (List (Nat × Nat)))
  /-- R343: ACK has not advanced for 1 µs, so the sender replays from ACK + 1. -/
  | replayTimeout (port : Nat)
  /-- R350: A neighbour's PUT message is verified, translated and written, and an ANSWER follows. -/
  | linkPut (port : Nat)
  /-- R350: A neighbour's GET message is verified, translated and read, and a GETRESP follows. -/
  | linkGet (port : Nat)
  /-- R350: A neighbour's RPUT becomes reduction packets with tag 0 to a PSP. -/
  | linkRput (port : Nat)
  /-- R346: A GETRESP answering an outstanding link GET arrives with its data and status. -/
  | getresp (port : Nat)
  /-- R347: An ANSWER for an outstanding link request arrives. -/
  | linkAnswer (port : Nat)
  /-- R355: A neighbour's BARRIER message arrives and completes a matching chain barrier. -/
  | linkBarrier (port : Nat)
  /-- R465: A TIMESYNC message arrives, and the port computes the offset and steers the time base. -/
  | timesync (port : Nat)
  /-- R357: The 1 ms timer expires, and an ACTIVE port sends a TIMESYNC message. -/
  | timesyncSend (port : Nat)
  /-- R348: The neighbour's HELLO arrives with its serial number, port index and nonce. -/
  | hello (port : Nat)
  /-- R348: A fragment of the neighbour's certificate chain arrives. -/
  | cert (port : Nat)
  /-- R348: The neighbour's signed ephemeral key arrives, and the port checks it and derives the keys. -/
  | keyx (port : Nat)
  /-- R348: The neighbour's FINISH arrives as the first tagged message, and the port enters ACTIVE. -/
  | finish (port : Nat)
  /-- R337: A named DOWN port begins training, at DEV_COMMIT or after the 10 s retry delay. -/
  | linkTrainingStart (port : Nat)
  /-- R337: A training step exceeds its bound, and the port enters DOWN. -/
  | linkTrainStepTimeout (port : Nat)
  /-- R335: The readiness test ends, and the port fixes its lane maps and width or enters DOWN with reason WIDTH. -/
  | readinessTestComplete (port : Nat) (tx rx : List LaneTest)
  /-- R336: A 1-second error window closes, and lanes that exceeded the limits fail. -/
  | laneErrorWindow (port : Nat) (corr uncorr : List (Nat × Nat))
  /-- R340: A retrain request in the lane markers stops data flits, and failed lanes are replaced. -/
  | retrain (x : MarkerRx)
  /-- R340: The retrain finishes, and both directions replay from ACK + 1, possibly at a lower width. -/
  | retrainComplete (port : Nat) (tx : List LaneTest) (rx : RxFound)
  /-- R339: Lane markers are lost on every lane for 10 µs, and the port enters DOWN. -/
  | laneMarkerLoss (x : MarkerLoss)
  /-- R355: The flag a link-chain iteration waits on reaches WCOUNT and is taken. -/
  | linkChainFlagWait (port q : Nat)
  /-- R355: All answers of a link-chain iteration have arrived; it signals and the chain proceeds. -/
  | linkChainIterationComplete (port q : Nat)
  /-- R376: Every 1 µs, the cap controller recomputes the class grants and integrates the energy counters. -/
  | capControlTick (x : CapSample)
  /-- R362: The remote sense reaches the new setpoint, so a region raising voltage takes its new frequency. -/
  | opVoltageSettled (rgn : Nat) (failed : Option Nat)
  /-- R380: A 100 µs window closes; each class's measurement is checked and its governing draw decided. The operands
  are the readings of the rails of each class. -/
  | powerMeasurementWindow (links memory compute : List RailReading)
  /-- R371: A region's 100 ns current sample applies the over-current stretch, release or stop. -/
  | currentMonitorSample (rgn amps : Nat)
  /-- R373: A cluster's droop detector sees local VCORE below a threshold and stretches the clock. -/
  | droopDetect (dc : Nat) (permille : Nat)
  /-- R373: VCORE has stayed within 3% for 200 ns, and the droop stretch falls by one level. -/
  | droopRecover (dc : Nat)
  /-- R369: The next header-switch stage of a turn-on closes once its interval and the current check allow. -/
  | clusterTurnOnStage (dc : Nat)
  /-- R368: A turn-on that waited 500 µs beside a loaded region proceeds with doubled stage intervals. -/
  | turnOnWaitExpire (dc : Nat)
  /-- R369: 10 µs after a turn-on, the stretch on the region's other clusters ends. -/
  | turnOnStretchRelease (rgn : Nat)
  /-- R381: A running slack monitor falls below minimum, stretching its region and raising SLACK. -/
  | ageingSlackLow (rgn : Nat)
  /-- R406: A regulator reports a fault or misses its setpoint, and the affected rail's consumers stop. -/
  | regulatorFault (rail : Rail)
  /-- R386: Every 100 µs, the thermal sensors are read and invalid sensors are distrusted. -/
  | sensorRead (stack : Nat) (xs : List SensorSample)
  /-- R387: Every 1 ms, each site checks its layers against the heat model and sets the accepted values.
  The heat is that of the model's own estimates: `compute` and `above` bear on nothing. -/
  | plausibilityCheck (stack site compute : Nat) (above : List Nat)
  /-- R392: A layer has stayed at its limit for 100 ms at factor 4.0, so the site's clusters stop and the partition enters SALVAGE. -/
  | overtempStop (stack site : Nat)
  /-- R393: A compute sensor reaches 115 °C; the package trips, asserts THERMTRIP_N and enters SALVAGE. -/
  | thermalTrip
  /-- R396: A 10 s window yields a running θ, raising or clearing COOLING_DEGRADED. `elapsed`: the window's 10 s have passed. -/
  | thetaWindow (stack : Nat) (elapsed : Bool)
  /-- R400: The keep-warm hold time expires, and the target starts to fall at the cooling rate. -/
  | keepWarmHoldExpire (stack : Nat)
  /-- R394: The tray writes the coolant inlet temperature with SMBus command 0x40. -/
  | inletTemperatureWrite (w : SmbusWrite)
  /-- R394: The tray writes the coolant outlet temperature with SMBus command 0x41. -/
  | outletTemperatureWrite (w : SmbusWrite)
  /-- R394: The tray writes the coolant flow with SMBus command 0x42. -/
  | flowWrite (w : SmbusWrite)
  /-- R445: The tray reports supply redundancy with SMBus command 0x43. -/
  | supplyRedundancyWrite (w : SmbusWrite)
  /-- R397: The tray reads the thermal alert status word with SMBus command 0x30. -/
  | alertStatusRead
  /-- R397: SMBus command 0x31 clears the W1C DRIFT bit. -/
  | alertDriftClear (w : SmbusWrite)
  /-- R397: SMBus command 0x32 sets the alert mask. -/
  | alertMaskWrite (w : SmbusWrite)
  /-- R407: Power-good rises and the cold boot begins. -/
  | pwrgdInRise (x : BootSample)
  /-- R454: Power-good falls, and a package reset is held. -/
  | pwrgdInFall
  /-- R454: PKG_RST_N has been low for 1,000 reference cycles, so a package reset is taken. -/
  | pkgRstNAssert
  /-- R408: PKG_RST_N is released, and a warm boot begins, on the fast path when allowed. -/
  | pkgRstNRelease (x : BootSample)
  /-- R403: Meridian's watchdog expires and causes a warm reset with the full self-test. -/
  | watchdogExpire (x : BootSample)
  /-- R403: Meridian requests a reset 100 ms after FW_ACTIVATE's reply in SAFE-TALK. -/
  | meridianResetRequest (x : BootSample)
  /-- R471: Meridian appends a queued severe event to the persistent log in flash. -/
  | persistentLogAppend
  /-- R365: After a cluster's clock stops, the next header-switch stage opens, in reverse order at the stage interval, until the cluster is off. -/
  | clusterTurnOffStage (dc : Nat)
  /-- R271: VAUX is first applied, and the VAUX-held integrity registers and energy counters start at zero before power-good rises. -/
  | vauxApply
  /-- R460: VAUX falls below 1.62 V, so all device state is lost and THERMTRIP_N is left undriven. -/
  | vauxLoss
  /-- R337: The port's receivers lock to the neighbour's training frames, completing training step 1. -/
  | trainingFrameLock (port : Nat)
  /-- R337: Equaliser adaptation and transmitter tuning finish, and the port enters TESTING to run the readiness test. -/
  | equaliserAdaptationComplete (port : Nat)
  /-- R332: After the lane-map exchange, the receivers align their lanes on the lane markers, the link layer starts and the port enters SECURING and sends HELLO. -/
  | laneAlignmentComplete (x : MarkerSet)
  deriving DecidableEq, Repr

end Sys2Proof
end

