-- ==== Sys2Proof/Config.lean ====
section
/-! DEFINITION. What an implementation of the spec fixes and the model leaves free: every constant here is
opaque, so a claim holds for every value of it. -/

namespace Sys2Proof

/-- A fresh unconstrained bit string for each number: random nonces, ephemeral private keys (R348, R432). -/
opaque Config.fresh : Nat → Nat

/-- R98, R123: the address that `CORE_FAULT1` holds for an ADDRESS, SPM_POWERED_DOWN or NOT_LOCAL found at dispatch, of which the spec
does not say which address of which region it is: core, fault code, macro-op, and the bases of its three regions. -/
opaque Config.refusedAddress : Nat → Nat → W64 → List Int → Nat

/-- R113: the choice between the two FP32 neighbours of an inexact exp2 result (within 1 ulp). -/
opaque Config.exp2Up : W32 → Bool
/-- R113: the same choice for log₂ of RST. -/
opaque Config.log2Up : W32 → Bool
/-- R113: the choice for rsqrt: between the two neighbours when inexact, or a step down, none or up when exact. -/
opaque Config.rsqrtPick : W32 → Nat
/-- R113: the same choice for recip. -/
opaque Config.recipUp : W32 → Bool

/-- R471: the source and code (source + 256 × code) of the severe warning for the first setting of `MEM_LOG_STAT.OVF`. -/
opaque Config.ovfWarning : Nat
/-- R471: the source and code (source + 256 × code) of the severe entry for a boot that fails, by the code of R409. -/
opaque Config.bootWarning : Nat → Nat
/-- R206: the source and code (source + 256 × code) under which an uncorrectable word of a valid store is logged. -/
opaque Config.storeWarning : Nat
/-- R470: the code under which the first entry of an event-log ring that has moved records the move. -/
opaque Config.ringMoved : Nat
/-- R470: the code of the entry by which the event-log ring's first entry counts those lost before VTARN rose. -/
opaque Config.ringLost : Nat
/-- R139, R264: the value of a check cell (position 64 to 87) for the eight bytes of a scratchpad word: the code's matrix is not given. -/
opaque Config.spmCheckBit : List Byte → Nat → Bool
/-- R264: whether three or more errors in one group of a scratchpad word are detected, by the group's flipped cells. -/
opaque Config.spmDetected : List Nat → Bool
/-- R264: whether a group whose three or more errors go undetected is taken for a corrected one. -/
opaque Config.spmCounted : List Nat → Bool
/-- R264: which of its 22 cells such a group is then taken to have corrected. -/
opaque Config.spmMisPos : List Nat → Nat

/-- R307, R312: the obstacle (bytes 4 and 5 of RESULT) that names the partitions RUNNING or DRAINING, given as a mask, in the answer STATE to FW_WRITE
and FW_ACTIVATE: the spec gives no encoding. -/
opaque Config.busyObstacle : Nat → Nat
/-- R312: the obstacle of PART_CREATE, by the masks of the named stacks and apertures already in use. -/
opaque Config.inUseObstacle : Nat → Nat → Nat
/-- R312: the obstacle of REG_WRITE for a write that the register ignored. -/
opaque Config.ignoredObstacle : Nat

/-- R158: the fixed hash of source endpoint and destination endpoint that chooses a plane. -/
opaque Config.planeHash : Nat → Nat → Nat
/-- R158: the fixed hash of destination endpoint and reduction tag. -/
opaque Config.tagPlaneHash : Nat → Nat → Nat

/-- R98: the cycles of a cluster's clock counted over an interval of the time base, stretched cycles included:
a function of the core and of the two ends of the interval. -/
opaque Config.coreCycles : Nat → Nat → Nat → Nat

/-- R424: the identity private key generated on the die of the part with a serial number. -/
opaque Config.identityPriv : Nat → Nat
/-- R425: the secret number of an ECDSA signature by the identity key: serial number and digest. -/
opaque Config.signNonce : Nat → List Byte → Nat
/-- R424: the device secret of the part with a serial number. -/
opaque Config.deviceSecret : Nat → List Byte
/-- R424: the root hash in the fuses, and R426: the key that has it, which signs the last certificate of a chain. -/
opaque Config.rootHash : List Byte
opaque Config.rootKey : List Byte
/-- R424: the nonce under which the identity private key is sealed, which the spec does not give. -/
opaque Config.sealNonce : Nat → Nat
/-- R428: the SHA-384 of the ROM's own contents. -/
opaque Config.romDigest : List Byte

/-- R363: the fused voltage of an operating point of a region, in mV. -/
opaque Config.vfMv : Nat → Nat → Nat
/-- R363: the fused floor of an operating point of a region, in mV. -/
opaque Config.vminMv : Nat → Nat → Nat
/-- R378: the fused energy coefficient of a kind of event for a class (0 links, 1 memory, 2 compute), in pJ, after a number of refits (R380). -/
opaque Config.energyCoef : Nat → Nat → Nat → Nat
/-- R378: the leakage term of a class, in µW, of a cluster (class 2), of a memory layer of a site (class 1, by (stack × 48 + site) × 8 + layer) or of a
port (class 0), from its voltage in mV and its accepted value in 1/8 °C. -/
opaque Config.leakage : Nat → Nat → Nat → Int → Nat
/-- R400: the draw of the warming load on a cluster, in µW, by its operating point. -/
opaque Config.warmDraw : Nat → Nat → Nat
/-- R377: the estimated draw of a region at another operating point, from the point in force and the estimate there, in µW. -/
opaque Config.drawAt : Nat → Nat → Nat → Nat → Nat
/-- R376: the estimate of the links or the memory class at its highest setting, from its estimate now, in W. -/
opaque Config.drawTop : Nat → Nat → Nat
/-- R387: fused thermal resistance of the interface above a layer at a site (stack, site, layer), in 10⁻⁵ °C/W. -/
opaque Config.theta : Nat → Nat → Nat → Nat
/-- R360: the reticle field that holds a spare column, by die and physical column (modulo 4). -/
opaque Config.spareField : Nat → Nat → Nat
/-- R385: the site of a cluster, by die × 256 + physical column. -/
opaque Config.siteOf : Nat → Nat
/-- R274, R276: the spares of a bank (or cluster) that the fuse map and the self-test have used, by the number of the boot and bits [24:0]
of an entry of the soft-repair record that would take one. -/
opaque Config.sparesUsed : Nat → Nat → Nat
/-- R272: the bit-column group of a symbol position of a word, for the four-in-one-group rule of R276. -/
opaque Config.bitColumnGroup : Nat → Nat → Nat
end Sys2Proof
end

