-- ==== Sys2Proof/Machine/Bits.lean ====
section
/-! DEFINITION. Bit fields, signed fields and byte order. -/

namespace Sys2Proof.Machine

/-- Bits [hi:lo] of a number, both ends included (R15). -/
def natBits (x hi lo : Nat) : Nat := (x / 2 ^ lo) % 2 ^ (hi + 1 - lo)

/-- Bit `i` of a number. -/
def natBit (x i : Nat) : Bool := (x / 2 ^ i) % 2 == 1

/-- A Bool as a bit. -/
def bit (b : Bool) : Nat := if b then 1 else 0

/-- The value of `w` low bits of `x` read as a two's-complement number. -/
def signedBits (x w : Nat) : Int :=
  let y := x % 2 ^ w
  if 2 * y < 2 ^ w then (y : Int) else (y : Int) - (2 ^ w : Nat)

/-- The unsigned value of a little-endian byte list (R15). -/
def leNat : List Byte → Nat
  | [] => 0
  | b :: bs => b.toNat + 256 * leNat bs

/-- `n` little-endian bytes of a number (R15). -/
def leBytes : Nat → Nat → List Byte
  | 0, _ => []
  | n + 1, x => BitVec.ofNat 8 (x % 256) :: leBytes n (x / 256)

/-- `n` bytes of a byte list from offset `off`, zero past its end. -/
def bytesAt (bs : List Byte) (off n : Nat) : List Byte :=
  (List.range n).map fun i => bs.getD (off + i) 0

/-- The little-endian number in `n` bytes of a byte list from offset `off`. -/
def fieldAt (bs : List Byte) (off n : Nat) : Nat := leNat (bytesAt bs off n)

/-- The bytes of an ASCII string. -/
def ascii (t : String) : List Byte := t.toList.map fun c => BitVec.ofNat 8 c.toNat

/-- `a` − `b` mod 2³² (R290). -/
def sub32 (a b : Nat) : Nat := (a + 2 ^ 32 - b % 2 ^ 32) % 2 ^ 32

/-- Whether a sequence number is after another (R290). -/
def seqAfter (a b : Nat) : Bool := let d := sub32 a b; decide (1 ≤ d ∧ d < 2 ^ 31)

end Sys2Proof.Machine
end

