-- ==== Sys2Proof/Machine/CoreState.lean ====
section
/-! DEFINITION. The state of one core: its registers, scratchpads, windows, engine banks, macro-op queue,
units and port (chapters 2 to 6 of the spec). -/

namespace Sys2Proof.Machine

/-- A sparse table by number: keys strictly rising, and no entry equal to the table's default. -/
abbrev SMap (α : Type) := List (Nat × α)

/-- `CORE_STATUS.STATE` (R98). -/
inductive CoreSt where
  | idle | running | trapped | faulted
  deriving DecidableEq, Repr

/-- One macro-op in a core's queue: the 64-bit word (R102) and its partition-virtual address (R123). -/
structure QEnt where
  word : W64
  addr : Nat
  deriving DecidableEq, Repr

/-- A region that a descriptor names, resolved at dispatch (R99, R100): `base` is the effective base. -/
structure Region where
  space : Nat := 0
  base : Int := 0
  fmt : Nat := 0
  stride0 : Int := 0
  stride1 : Int := 0
  ext0 : Nat := 0
  ext1 : Nat := 0
  sidx : Nat := 0
  deriving DecidableEq, Repr

/-- A loop open in a core: the masked descriptors' advances at the LPB and the iterations left (R118). -/
structure LoopFrame where
  mask : Nat
  saved : SMap Int
  left : Nat
  deriving DecidableEq, Repr

/-- The execution units that hold macro-ops (R104). -/
inductive UnitKind where
  | engine | vector | memory
  deriving DecidableEq, Repr

/-- Bytes still to move: `n` bytes from local offset `loc` to or from `far`, a device address. -/
structure Piece where
  loc : Nat
  far : Nat
  n : Nat
  /-- The local runs (address, bytes) that follow the first `n` bytes in the same fabric packet (R160); empty for the other transfers. -/
  more : List (Nat × Nat)
  deriving DecidableEq, Repr

/-- A macro-op held in a unit (R104 to R106), with its regions as its dispatch resolved them. -/
structure MOp where
  id : Nat
  word : W64
  addr : Nat
  kind : UnitKind
  started : Bool
  /-- R106: the local 64-byte lines it reads. -/
  rd : List Nat
  /-- R106: the local 64-byte lines it writes. -/
  wr : List Nat
  /-- R105: the aligned 128-byte Tarn words it touches, by partition-virtual address. -/
  tw : List Nat
  da : Region
  db : Region
  dc : Region
  /-- The translations its transfer has obtained, page by page (virtual page, physical page) of 64 KiB. -/
  xl : SMap Nat
  /-- Those of its pages that a 2 MiB leaf translates. -/
  big : List Nat := []
  /-- Those of its pages that the KV walker translates (R253). -/
  kvs : List Nat := []
  /-- The pieces its transfer has still to move, in order. -/
  todo : List Piece
  /-- The requests it waits for before it can complete (a GET). -/
  waits : List Nat
  /-- Set once its pieces have been formed. -/
  formed : Bool
  deriving DecidableEq, Repr

/-- The control macro-op in progress, for which dispatch waits (R104). -/
inductive Hold where
  /-- BAR dispatched: scope, sequencer mask, and the macro-op's address for a fault record; not yet arrived (R116). -/
  | bar (scope mask addr : Nat)
  /-- Arrived at the barrier with this number (R116). -/
  | arrived (bid : Nat)
  /-- WFL waits for flag `f` to reach `k`; `timeout` in µs, 0 for none (R117). -/
  | wfl (f k timeout : Nat) (addr : Nat)
  /-- WCL waits for the packets admitted to window `w` (R147). -/
  | wcl (w : Nat)
  /-- END waits for the core's macro-ops and remote writes (R120). -/
  | endOp
  /-- TRP: the core completes its earlier macro-ops; `traps` when its PG test passed (R121). -/
  | trp (code : Nat) (addr : Nat) (traps : Bool)
  /-- SCL holds dispatch until it completes in the engine (R104). -/
  | scl (id : Nat)
  deriving DecidableEq, Repr

/-- What an outstanding request of a core port is (R162, R176). -/
inductive ReqKind where
  | write | reduction | read
  deriving DecidableEq, Repr

/-- A request of the core port that awaits its answer or response (R162). -/
structure OutReq where
  pid : Nat
  kind : ReqKind
  /-- The macro-op that sent it, its opcode and its address, for faults and event records. -/
  op : Nat
  opcode : Nat
  addr : Nat
  /-- The local window offset a read response is written to. -/
  loc : Nat
  deriving DecidableEq, Repr

/-- A SIG or PUT notification that the core has not yet sent (R176). -/
structure SigReq where
  target : Nat
  flag : Nat
  /-- The requests whose answers must arrive first. -/
  after : List Nat
  /-- The macro-ops (VST, PUT, RPUT) that must first have committed or sent all their packets. -/
  afterOps : List Nat
  /-- R148: set when a packet of the PUT was dropped, which keeps the notification from being sent. -/
  dropped : Bool
  /-- 0x49 for a SIG, 0x38 for a notification (R123). -/
  opcode : Nat
  /-- The macro-op id of the PUT that asked for a notification. -/
  op : Nat
  /-- The address of the SIG or PUT, for a fault record. -/
  maddr : Nat
  deriving DecidableEq, Repr

/-- A packet that the owner has admitted and not yet committed (R145, R146). -/
structure HeldPkt where
  pid : Nat
  /-- Windows that admitted it; empty for a write of the host or Meridian that needs none. -/
  wins : List Nat
  off : Nat
  data : List (Option Byte)
  /-- R171, R173: an in-network reduction packet's format (8 FP32, 7 BF16); none for a plain write. -/
  red : Option Nat
  /-- R81: the running QNT whose source it would write. -/
  heldBy : Option Nat
  deriving DecidableEq, Repr

/-- One remote-write window: `CORE_WIN`w and `CORE_WINDROP`w (R143). -/
structure Win where
  base : Nat := 0
  last : Nat := 0
  scope : Nat := 0
  isOpen : Bool := false
  closing : Bool := false
  held : Bool := false
  epoch : Nat := 0
  dropCount : Nat := 0
  dropEpoch : Nat := 0
  /-- R147: an accepted WOP has given the window its range since the last core reset. -/
  ranged : Bool := false
  deriving DecidableEq, Repr

/-- All that one core holds (R21, R97, R98, R126, R143). The default value of each field is its value after a core reset. -/
structure Core where
  /-- A0 to A15 (R97). -/
  areg : SMap W48 := []
  pred : Bool := false
  bindSeq : Nat := 0
  bindEn : Bool := false
  st : CoreSt := .idle
  /-- `CORE_STATUS.ABANK`: the active accumulator bank, 0 or 1. -/
  abank : Nat := 0
  flt : Bool := false
  evt : Bool := false
  bwi : Bool := false
  /-- The 32-entry macro-op queue (R95). -/
  queue : List QEnt := []
  /-- The FP32 accumulators of bank 0, cell (i, j) at 16 i + j (R43). -/
  acc0 : SMap W32 := []
  acc1 : SMap W32 := []
  /-- The 72-bit block-local accumulators (R39, R46); zero between macro-ops (R47). -/
  blk : SMap Int := []
  /-- The scale table (R73). -/
  scale : SMap W64 := []
  /-- The descriptor table (R99). -/
  desc : SMap W128 := []
  /-- Loop advances in bytes, by descriptor (R118). -/
  adv : SMap Int := []
  loops : List LoopFrame := []
  /-- The sixteen flags (R97). -/
  flags : SMap W16 := []
  /-- WSP, ASP and PSP by window offset (R126): the bytes of valid lines. -/
  spm : List Host.Cell := []
  /-- The lines whose valid bit is set (R139). -/
  lineValid : List Nat := []
  /-- Flipped cells of valid scratchpad words: bit positions 0 to 87 by 64-bit word number (R264). -/
  spmFlips : SMap (List Nat) := []
  /-- Corrections of a scratchpad word since the package reset, for R276, by 64-bit word number. -/
  spmCorr : SMap Nat := []
  wins : SMap Win := []
  fault0 : W64 := 0
  fault1 : W64 := 0
  fault2 : W64 := 0
  events : W64 := 0
  eventLast : W16 := 0
  trapReg : W64 := 0
  /-- Time base at the last core reset, from which `CORE_CYCLE` counts (R98). -/
  cycleBase : Nat := 0
  hold : Option Hold := none
  /-- The macro-ops in the units, in stream order (R104). -/
  ops : List MOp := []
  nextOp : Nat := 0
  /-- Admitted packets awaiting their commit, in the order of their check points (R146). -/
  held : List HeldPkt := []
  /-- Requests awaiting an answer or response (R162). -/
  out : List OutReq := []
  /-- SIGs and notifications not yet sent (R176). -/
  sigs : List SigReq := []
  /-- R152 to R154: failed retries of the vertical-channel packet in flight. -/
  vRetries : SMap Nat := []
  /-- R374: the delay of the latest barrier release of this core, in picoseconds. -/
  relDelayPs : Nat := 0
  /-- R116: the BARs this core has dispatched in its stream. -/
  barSeq : Nat := 0
  deriving DecidableEq, Repr

end Sys2Proof.Machine
end

