-- ==== Sys2Proof/Machine/ClusterState.lean ====
section
/-! DEFINITION. The state of one cluster and its column: sequencers, DMA engine, translation unit, KV walker,
spring queue, power state, fabric leaf (chapters 4 to 9, 13). -/

namespace Sys2Proof.Machine

/-- `SEQ_STATE` bits [2:0] (R96). -/
inductive SeqSt where
  | idle | running | trapped | ended | faulted
  deriving DecidableEq, Repr

/-- A loop open in a sequencer: the address after its LPB and the iterations left, this one included (R118). -/
structure SeqLoop where
  body : Nat
  left : Nat
  deriving DecidableEq, Repr

/-- One stream sequencer (R94 to R96). -/
structure Seqr where
  start : Nat := 0
  limit : Nat := 0
  st : SeqSt := .idle
  /-- Fault code of the last sequencer fault: `SEQ_STATE` bits [15:8]. -/
  code : Nat := 0
  pc : Nat := 0
  issued : W64 := 0
  /-- The 64-byte unit fetched last: its address and bytes. -/
  buf : Option (Nat × List Byte) := none
  loops : List SeqLoop := []
  /-- Nested loops open inside a body that COUNT = 0 skips (R118); 0 when none is skipped. -/
  skip : Nat := 0
  /-- END has been issued: nothing more is fetched (R120). -/
  ended : Bool := false
  /-- A TRP has been issued: its code and address (R121). -/
  trp : Option (Nat × Nat) := none
  /-- Codes of event faults already raised for this stream (R123). -/
  evCodes : List Nat := []
  /-- The stream ended by an abort, for its STREAM_END event (R318). -/
  aborted : Bool := false
  /-- R125: a sequencer fault or abort is draining the bound cores. -/
  draining : Bool := false
  /-- Rotation points this sequencer has reached since PART_RUN (R398). -/
  rotIdx : Nat := 0
  /-- R317: the start waits for `CLU_SPM_PWR.BUSY` to clear (R137). -/
  waitPwr : Bool := false
  deriving DecidableEq, Repr

/-- A translation held in a look-aside buffer (R196): virtual page of 64 KiB, and the leaf. -/
structure Tlb where
  part : Nat
  /-- First byte of the page and its size in bytes (64 KiB or 2 MiB). -/
  va : Nat
  size : Nat
  pa : Nat
  w : Bool
  spr : Bool
  ext : Bool
  deriving DecidableEq, Repr

/-- An invalidation (R197): of the page that holds an address, or of all; of which partition's translations, in an I/O die; and the
aperture whose XLAT_INVAL waits for it. -/
structure Inv where
  what : Option Nat
  part : Option Nat
  ap : Option Nat
  /-- R198: the accesses that used what it removed: macro-ops (core, number), and requests in the fabric. -/
  ops : List (Nat × Nat)
  pids : List Nat
  deriving DecidableEq, Repr

/-- A translation unit: a cluster's, the lead I/O die's or a port I/O die's (R193). -/
structure XUnit where
  /-- Most recently used first; at most 512 in a cluster's unit (R196). -/
  tlb : List Tlb := []
  /-- Invalidations not yet complete, oldest first (R197, R198). -/
  inv : List Inv := []
  deriving DecidableEq, Repr

/-- `CLU_DMA_STATUS.STATE` (R202). -/
inductive DmaSt where
  | idle | running | waiting | ended | error
  deriving DecidableEq, Repr

/-- A cluster DMA descriptor (R199). -/
structure DmaDesc where
  src : Nat := 0
  sspace : Nat := 0
  dst : Nat := 0
  dspace : Nat := 0
  rowBytes : Nat := 0
  rows : Nat := 0
  fmt : Nat := 0
  skew : Bool := false
  sstride : Int := 0
  dstride : Int := 0
  wcore : Nat := 0
  wflag : Nat := 0
  wcount : Nat := 0
  score : Nat := 0
  sflag : Nat := 0
  sen : Bool := false
  next : Nat := 0
  last : Bool := false
  sadv : Int := 0
  dadv : Int := 0
  rep : Nat := 1
  reserved : Bool := false
  deriving DecidableEq, Repr

/-- The cluster DMA engine (R199 to R202). -/
structure Dma where
  head : Nat := 0
  st : DmaSt := .idle
  code : Nat := 0
  descAddr : Nat := 0
  bytes : W64 := 0
  /-- The descriptor in progress, once it has been read. -/
  cur : Option DmaDesc := none
  iter : Nat := 0
  /-- The flag of this iteration has been taken, or none is waited for. -/
  taken : Bool := false
  /-- The location whose bank a copy has found held by a spring step (R225). -/
  waits : Option Nat := none
  deriving DecidableEq, Repr

/-- A look-aside entry of the KV walker (R256). -/
structure KvTlb where
  list : Nat
  page : Nat
  pa : Nat
  w : Bool
  spr : Bool
  /-- Slice offsets of the list entry and pool entry it derives from (R257). -/
  lent : Nat
  pent : Nat
  deriving DecidableEq, Repr

/-- The KV walker (R252 to R257). -/
structure Kvw where
  en : Bool := false
  wbase : Nat := 0
  loff : Nat := 0
  poff : Nat := 0
  psize : Nat := 0
  ign : Bool := false
  hits : W64 := 0
  walks : W64 := 0
  tlb : List KvTlb := []
  deriving DecidableEq, Repr

/-- How far a sequence has come (R220 to R224). -/
structure SprSeq where
  id : Nat
  /-- The submitting core, or none for Meridian and the host (R219). -/
  core : Option Nat
  flag : Nat
  /-- Descriptor bytes, with the query block for KVATT. -/
  desc : List Byte
  /-- Slots name device physical addresses (a Meridian submission, R237). -/
  phys : Bool
  /-- Where a Meridian submission's completion record goes: its descriptor's address + 16 (R221). -/
  recAddr : Nat
  started : Bool
  /-- Steps done, and the next step of the element-wise kinds. -/
  steps : Nat
  preempt : Nat
  satblk : Nat
  /-- KVATT: the next step of each unit (memory die × 4 + unit), and its row states. -/
  kvNext : SMap Nat
  /-- KVATT: (memory die × 4 + unit) × 8 + row gives the row maximum, sum and outputs (R229). -/
  kvM : SMap W32
  kvL : SMap W32
  kvO : SMap W32
  /-- RMSSTAT: the row sums so far, by row. -/
  sums : SMap W32
  /-- R223, R238: the status with which it ends once none of its steps runs. -/
  ending : Option Nat
  /-- Element-wise kinds: the memory die of the region in which element 0 of S0 lies, once a step has found it (R232). -/
  region : Option Nat
  /-- The address of the SPQ that submitted it, for its core's fault record (R269). -/
  maddr : Nat
  deriving DecidableEq, Repr

/-- A submission waiting for the queue (R219): the core and macro-op id, or Meridian's. -/
structure SprWait where
  core : Option Nat
  op : Nat
  flag : Nat
  desc : List Byte
  phys : Bool
  recAddr : Nat
  /-- R219: requests of the submitter whose answers must arrive first. -/
  after : List Nat
  /-- R219: PUTs and RPUTs of the submitter that have packets still to send. -/
  afterOps : List Nat
  /-- The address of the SPQ. -/
  maddr : Nat
  deriving DecidableEq, Repr

/-- A running spring step: the unit holding the permit of a column and memory die (R214, R224). -/
structure SprStep where
  mdie : Nat
  unit : Nat
  seq : Nat
  /-- The step of the sequence: the stripe number, or the token group of a page. -/
  step : Nat
  banks : List Nat
  /-- How often each bank's refresh has fallen due within the step (R226). -/
  dues : SMap Nat
  suspended : Bool
  deriving DecidableEq, Repr

/-- The spring queue of a column (R219, R237). -/
structure SprQ where
  en : Bool := true
  waiting : List SprWait := []
  seqs : List SprSeq := []
  nextId : Nat := 0
  running : List SprStep := []
  /-- Round-robin place of each memory die's permit: the unit granted last (R214). -/
  lastUnit : SMap Nat := []
  done : W64 := 0
  refused : W64 := 0
  steps : W64 := 0
  deriving DecidableEq, Repr

/-- `CLU_PWR.STATE` (R382). -/
inductive PwrSt where
  | off | turningOn | on | stopped
  deriving DecidableEq, Repr

/-- The switching of a cluster (R365 to R369, R382). -/
structure CluPwr where
  st : PwrSt := .off
  /-- Header-switch stages closed, 0 to 4. -/
  stages : Nat := 0
  waitLoad : Bool := false
  /-- R369: its next stage waits for the region's current, and stretches the region. -/
  stageHeld : Bool := false
  /-- R368: the turn-on has waited 500 µs and proceeds with doubled intervals. -/
  doubled : Bool := false
  /-- A turn-on is due (R366). -/
  due : Bool := false
  /-- A turn-off is opening the stages (R365). -/
  turningOff : Bool := false
  /-- R415: the off period of a cluster reset runs. -/
  resetOff : Bool := false
  /-- R414: a cluster reset is in progress, from its reset point to the end of its turn-on. -/
  inReset : Bool := false
  /-- R373: 0 none, 1 factor 1.25, 2 factor 1.5. -/
  droop : Nat := 0
  droopCount : W64 := 0
  deriving DecidableEq, Repr

/-- One cluster and its column (R189). The default value of each field is its value after package reset. -/
structure Cluster where
  seqs : SMap Seqr := []
  /-- `CLU_SPM_PWR` bits [5:0] (R136). -/
  spmPwr : Nat := 0
  spmIgn : Bool := false
  spmBusy : Bool := false
  fabTx : W64 := 0
  fabRx : W64 := 0
  fabComb : W64 := 0
  fabNocomb : W64 := 0
  fabRetry : W64 := 0
  xlatEn : Bool := false
  xlatBase : Nat := 0
  xlat : XUnit := {}
  xlatWalks : W64 := 0
  dma : Dma := {}
  kvw : Kvw := {}
  tarnWait : W64 := 0
  fillWait : W64 := 0
  spr : SprQ := {}
  pwr : CluPwr := {}
  /-- R168: the sequencer served last by the broadcast bus. -/
  busLast : Nat := 3
  deriving DecidableEq, Repr

end Sys2Proof.Machine
end

