-- ==== Sys2Proof/Machine/MemState.lean ====
section
/-! DEFINITION. The state of the memories, the stacks and the fabric (chapters 6, 7, 10, 13 and 14). -/

namespace Sys2Proof.Machine

/-- The fabric's endpoints (R156). -/
inductive Endpoint where
  | core (lci : Nat)
  | column (dc : Nat)
  | ctrl (dc : Nat)
  | leadIo
  | link (k : Nat)
  deriving DecidableEq, Repr

/-- A fill entry of a column and memory die (R210): the page, by location number / 4096, and the mask of its
128-byte words written. -/
structure Fill where
  page : Nat
  mask : Nat
  deriving DecidableEq, Repr

/-- The Tarn and DRAM arrays with their valid stores (R206 to R211), keyed by LOCATION (column, memory die and offset):
the address map names locations through `CLSIZE` (R191, R192). -/
structure Mem where
  bytes : List Host.Cell := []
  /-- Tarn granules of 512 B whose valid bit is set, by location / 512. -/
  tarnValid : List Nat := []
  /-- DRAM pages of 4 KiB whose valid bit is set, by location / 4096. -/
  dramValid : List Nat := []
  fills : List Fill := []
  /-- Stored symbols in error by 128-byte word: (symbol position, difference) (R262, R263). -/
  flips : SMap (List (Nat × Nat)) := []
  /-- Words rewritten as poisoned (R267). -/
  poison : List Nat := []
  /-- Poisoned words whose first poisoned read has been recorded (R269). -/
  poisonSeen : List Nat := []
  /-- Corrected words awaiting their write-back (R266). -/
  writeBack : List Nat := []
  /-- The accesses that have met a bank held by a spring step and wait for its end (R225): the location, and the requester's endpoint. -/
  waits : List (Nat × Endpoint) := []
  deriving DecidableEq, Repr

/-- One entry of the correctable-error log (R272). -/
structure MemLog where
  addr : Nat
  unit : Nat
  mdie : Nat
  nsym : Nat
  first : Nat
  last : Nat
  rep : Nat
  pos0 : Nat
  pos1 : Nat
  deriving DecidableEq, Repr

/-- A change of a region's operating point that waits for its voltage (R362). -/
structure OpChange where
  point : Nat
  vset : Nat
  deriving DecidableEq, Repr

/-- One VCORE supply region (R360 to R363, R370 to R372, R382). -/
structure Rgn where
  op : Nat := 6
  trim : Int := 0
  vset : Nat := 0
  /-- `PWR_RGN.OCS`: 0 none, 1 stretch, 2 stopped. -/
  ocs : Nat := 0
  topLost : Bool := false
  /-- Latest monitor sample in 0.1 A. -/
  amps : Nat := 0
  ocEvt : W64 := 0
  /-- Consecutive samples above 1,050 A, at most 1,000 A, and above 1,150 A (R371). -/
  hi : Nat := 0
  lo : Nat := 0
  trip : Nat := 0
  /-- R371: the point it may not rise above, and the ticks of 1 µs for which that holds. -/
  capOp : Nat := 0
  capTicks : Nat := 0
  change : Option OpChange := none
  /-- R369: 0 none, 1 factor 1.25, 2 factor 1.5, 3 factor 2.0 on the other running clusters. -/
  turnOnStretch : Nat := 0
  /-- R381: factor 1.25 until the next cold boot. -/
  slack : Bool := false
  /-- R406: the rail has faulted. -/
  failed : Bool := false
  deriving DecidableEq, Repr

/-- One layer of a thermal site (R385 to R388); temperatures in eighths of a degree. -/
structure Sensor where
  reading : Int := 0
  valid : Bool := true
  distrusted : Bool := false
  fails : Nat := 0
  passes : Nat := 0
  passLast : Bool := true
  accepted : Int := 0
  deriving DecidableEq, Repr

/-- One thermal site (R385 to R392): 0 none, 1 for 1.25, 2 for 1.5, 3 for 2.0, 4 for 4.0. -/
structure Site where
  layers : SMap Sensor := []
  /-- Factor of R390, as a level. -/
  level : Nat := 0
  /-- Checks (1 ms each) for which f has stayed low enough to fall by one row. -/
  cool : Nat := 0
  /-- Factor of R389: some sensor of the site is or was distrusted. -/
  distrust : Bool := false
  /-- By layer, the checks (1 ms each) for which it has stayed at its limit while the site's clusters run at factor 4.0 (R392). -/
  hot : SMap Nat := []
  deriving DecidableEq, Repr

/-- Refresh and clock state of a memory die (R190, R203, R204, R391). -/
structure MDie where
  hot : Bool := false
  src : Bool := false
  preempt : W64 := 0
  /-- Spring clock divisor k (R212, R391): 1, 2, 4, 8 or 16. -/
  div : Nat := 1
  /-- Checks (1 ms each) for which the temperature has stayed below the divisor's step. -/
  cool : Nat := 0
  ce : W64 := 0
  ue : W64 := 0
  /-- The next word of the DRAM patrol scrub (R270), as device physical address / 128. -/
  scrubAt : Nat := 0
  /-- Scrub passes this die has completed since VAUX was applied. -/
  passes : Nat := 0
  /-- R215: the cap withholds the die's spring permits. -/
  withheld : Bool := false
  deriving DecidableEq, Repr

/-- One stack and its die control block (R190, R271, R382, R401). -/
structure Stack where
  clsize : Nat := 0
  /-- R37: the stack is unavailable. -/
  unavailable : Bool := false
  /-- The partition that holds it (R10). -/
  part : Option Nat := none
  mdie : SMap MDie := []
  ceTarn : W64 := 0
  ceSpm : W64 := 0
  ueTarn : W64 := 0
  ueSpm : W64 := 0
  poisonReads : W64 := 0
  log : List MemLog := []
  logOvf : Bool := false
  unlogged : Nat := 0
  dhours : Nat := 24
  thours : Nat := 4
  scrubEn : Bool := true
  dpass : Nat := 0
  tpass : Nat := 0
  tScrubAt : Nat := 0
  rgns : SMap Rgn := []
  sites : SMap Site := []
  dcount : W64 := 0
  /-- `THM_STAT.DEGRADED`, `.WARM` (R396, R400). -/
  degraded : Bool := false
  warm : Bool := false
  /-- θb, running θ and θ₀ in 10⁻⁵ °C/W (R395). -/
  thetaBoot : Nat := 0
  thetaRun : Nat := 0
  thetaInst : Nat := 0
  degWin : Nat := 0
  resWin : Nat := 0
  /-- The cold-plate resistance of each site in 10⁻⁵ °C/W (R387, R395). -/
  plates : SMap Nat := []
  /-- The 10 s window in progress (R395): the sum and the number of the accepted compute values of its checks; the sum, the number, the lowest and
  the highest of the stack's governing draws in it, in W. -/
  winTemp : Int := 0
  winChecks : Nat := 0
  winPower : Nat := 0
  winTicks : Nat := 0
  winLow : Nat := 0
  winHigh : Nat := 0
  /-- Whether the coolant readings have been implausible within it. -/
  winBad : Bool := false
  /-- R400: keep-warm is in force; its hold time has expired; the checks (1 ms each) for which its target has fallen since. -/
  keepWarm : Bool := false
  holdOver : Bool := false
  fallMs : Nat := 0
  /-- R406: VTARN, VMEM or VPP of the stack has faulted. -/
  memFailed : Bool := false
  /-- R406, R470: VTARN of the stack has faulted. -/
  tarnFailed : Bool := false
  /-- R398: energy of the stack in µJ (R474). -/
  energy : W64 := 0
  deriving DecidableEq, Repr

/-- Answer statuses of the fabric (R160). -/
inductive FabStatus where
  | commit | windowClosed | noWindow | resetAbort | busError | address
  deriving DecidableEq, Repr

/-- Packet kinds in flight (R160). -/
inductive PktKind where
  | write | readReq | readResp | reduction | broadcast | answer | control
  deriving DecidableEq, Repr

/-- A fabric packet in flight (R160). -/
structure Pkt where
  id : Nat
  kind : PktKind
  src : Endpoint
  dst : Endpoint
  vc : Nat
  /-- R159: the source partition. -/
  part : Option Nat
  /-- Device physical address of its first byte (R159, R187). -/
  addr : Nat
  /-- Bytes with their mask. -/
  data : List (Option Byte)
  /-- Bytes a read request names. -/
  len : Nat
  /-- Reduction tag and format (R170). -/
  tag : Nat
  fmt : Nat
  /-- R142: the writer's scope at the destination: 0 cluster, 1 die, 2 partition. -/
  scope : Nat
  /-- The request an answer or response answers. -/
  req : Nat
  status : FabStatus
  /-- The word in error, for BUS_ERROR. -/
  errAddr : Nat
  /-- Hops with a CRC still to pass, in order (R152, R158). -/
  hops : List Hop
  retries : Nat
  /-- The owner has admitted it: it awaits its commit (R145, R146). -/
  taken : Bool
  /-- R211: the write waits for a free fill entry. -/
  waitFill : Bool
  /-- R161: its place among the packets that entered their switches. -/
  stamp : Nat
  /-- R149: its core was reset while it was in flight. -/
  stale : Bool
  /-- R198: the virtual page of 64 KiB whose translation its address comes from, and whether a 2 MiB leaf gave it; none for scratchpad space and for the
  KV walker's pages. -/
  page : Option (Nat × Bool) := none
  deriving DecidableEq, Repr

/-- The packets of a transfer that an I/O port writes (R142, R324, R350): to package scratchpad space or to memory. -/
structure OutJob where
  spm : Bool
  /-- The packets not yet sent, in order: address and bytes. -/
  left : List (Nat × List Byte)
  /-- Bytes committed, and the first failure (status, address). -/
  done : Nat := 0
  first : Option (FabStatus × Nat) := none
  /-- R81, R146: the packet that its owner has admitted and not yet answered, with its bytes. -/
  wait : Option (Nat × Nat) := none
  deriving DecidableEq, Repr

/-- A broadcast that BCAST_WRITE sends (R169, R325): its packets, what they have come to, and the packet in progress. -/
structure BcastJob where
  /-- The packets not yet sent: offset and bytes. -/
  left : List (Nat × List Byte) := []
  /-- The first failing packet's status, offset and failed branches; the failed packets; the bytes of the packets that every branch committed. -/
  first : Option (FabStatus × Nat × Nat) := none
  failed : Nat := 0
  bytes : Nat := 0
  /-- The packet in progress: offset, bytes, its first failing status, failed branches, and the branches whose owners have admitted it and not yet
  answered (R81, R146). -/
  off : Nat := 0
  len : Nat := 0
  st : Option FabStatus := none
  bad : Nat := 0
  wait : List Nat := []
  deriving DecidableEq, Repr

/-- An answer-table entry (R172): the combined packet and the two it replaced. -/
structure Combined where
  sw : SwitchName
  pid : Nat
  a : Nat
  b : Nat
  srcA : Endpoint
  srcB : Endpoint
  deriving DecidableEq, Repr

/-- An output of a switch (R157): towards another switch, or towards an endpoint, from a plane (0 at a leaf). -/
inductive Output where
  | link (a b : SwitchName)
  | port (plane : Nat) (e : Endpoint)
  deriving DecidableEq, Repr

/-- The turn of an output's arbiter (R161). -/
structure OutTurn where
  out : Output
  /-- Which of VC1 and VC2 it served last. -/
  lastVc : Nat
  /-- The input served last in each virtual channel. -/
  lastIn : SMap Nat
  deriving DecidableEq, Repr

/-- The fabric (R156 to R176). -/
structure Net where
  pkts : List Pkt := []
  nextId : Nat := 0
  table : List Combined := []
  /-- R161: the arbiters that have served a packet. -/
  turns : List OutTurn := []
  /-- The answers that have reached an I/O port and are not yet taken by the transfer that waits for them (R146, R160): request, status, word in error. -/
  acks : List (Nat × FabStatus × Nat) := []
  /-- R277: hops with a hard fault in force. -/
  hard : List Hop := []
  /-- R152: failed tries in a row, at a hop, of the packet that its sender's own command delivers. -/
  tries : List (Hop × Nat) := []
  /-- R178, R473: pair additions and uncombined packets of the spine planes (die × 16 + plane; die 6 the package spine). -/
  spineComb : SMap W64 := []
  spineNocomb : SMap W64 := []
  spineRetry : SMap W64 := []
  spineBytes : SMap W64 := []
  deriving DecidableEq, Repr

/-- A barrier whose participation is fixed (R116, R117). -/
structure Barrier where
  id : Nat
  scope : Nat
  /-- The cluster, die or partition the scope names. -/
  place : Nat
  mask : Nat
  parts : List Nat
  arrived : List Nat
  /-- The cluster whose control port gathers its arrivals: that of the core which arrived first (R160; DESIGN CHOICE: the spec names no endpoint). -/
  home : Nat := 0
  deriving DecidableEq, Repr

/-- The access that a walk delays (R196): a sequencer's fetch, or a macro-op of a core. -/
inductive WalkFor where
  | seq (n : Nat)
  | op (lci id : Nat)
  deriving DecidableEq, Repr

/-- A table walk in progress (R196), or a KV walk (R256). -/
structure Walk where
  id : Nat
  who : UnitName
  part : Nat
  va : Nat
  kv : Bool
  req : WalkFor
  deriving DecidableEq, Repr

end Sys2Proof.Machine
end

