-- ==== Sys2Proof/Machine/HostState.lean ====
section
/-! DEFINITION. The state of the host interface, the partitions, the device and its firmware (chapters 11, 15, 16 and 18). -/

namespace Sys2Proof.Machine

/-- `HIF_STATE.DSTATE` (R310). -/
inductive DevSt where
  | boot | selftest | safeTalk | config | ready | running | draining | salvage
  deriving DecidableEq, Repr

/-- `HIF_STATE.P`q (R311). -/
inductive PartSt where
  | none | config | ready | running | draining | salvage
  deriving DecidableEq, Repr

/-- A session (R302, R303, R433): the pseudorandom key that KEX derived. -/
structure Session where
  prk : List Byte
  deriving DecidableEq, Repr

/-- A taken packet not yet examined (R287): its bytes and the sequence number of its slot. -/
structure RawPkt where
  bytes : List Byte
  slot : Nat
  deriving DecidableEq, Repr

/-- A block that a command sends to the host by chunks (R301, R303, R323): where its data and its tags go, what is left of it, and the RESULT that follows
it. -/
structure PostJob where
  haddr : Nat
  taddr : Option Nat
  left : List Byte
  result : List Byte
  deriving DecidableEq, Repr

/-- A command that has passed checks 1 to 3 of R306. -/
structure Cmd where
  opcode : Nat
  seq : Nat
  tag : Nat
  enc : Bool
  params : List Byte
  /-- COUNT of its nonce (R303). -/
  count : Nat
  /-- The command has started: it waits for chunks, answers or an event. -/
  started : Bool
  /-- Bytes moved so far (R324), or chunks. -/
  moved : Nat
  /-- A number the command keeps: the partition, cluster, ports or sectors it acts on. -/
  aux : Nat
  /-- Data gathered or to be sent by DMA (R323). -/
  buf : List Byte
  /-- The chunk in progress, where its packets have been sent in part (R81, R146). -/
  job : Option OutJob := none
  /-- The broadcast in progress (R325). -/
  bcast : Option BcastJob := none
  /-- The block in progress that the command sends to the host. -/
  post : Option PostJob := none
  /-- The first byte of its parameter area that should be zero and is not, as a packet offset (R292, R307). -/
  stray : Option Nat
  deriving DecidableEq, Repr

/-- A reply record that waits to be written (R293). -/
structure Rec where
  status : Nat
  code : Nat
  seq : Nat
  tag : Nat
  result : List Byte
  deriving DecidableEq, Repr

/-- An event queued for an aperture's ring (R300). -/
structure EvRec where
  code : Nat
  result : List Byte
  deriving DecidableEq, Repr

/-- One aperture (R282 to R300). -/
structure Aperture where
  en : Bool := false
  log2n : Nat := 6
  /-- `AP_CTRL.VEC`; none stands for its reset value, the aperture's own number. -/
  vec : Option Nat := none
  modn : Nat := 1
  modt : Nat := 10
  mask : Bool := false
  ign : Bool := false
  headErr : Bool := false
  ringBase : Nat := 0
  head : Nat := 0
  tail : Nat := 0
  next : Nat := 0
  drops : W64 := 0
  authFail : W64 := 0
  evLost : W64 := 0
  authRun : Nat := 0
  /-- The partition it serves (R285). -/
  part : Option Nat := none
  /-- Landed units by slot × 256 + unit (R286). -/
  units : SMap (List Byte) := []
  taken : List RawPkt := []
  cur : Option Cmd := none
  recs : List Rec := []
  evq : List EvRec := []
  evNew : Nat := 0
  /-- Events written to this ring since it was enabled: the SEQ of event records (R293). -/
  evSeq : Nat := 0
  /-- Packets taken and records written since KEX (R303). -/
  pktCount : Nat := 0
  recCount : Nat := 0
  /-- R302: the session takes effect for records after KEX's reply. -/
  recClear : Bool := false
  /-- Records written since the last signal (R283). -/
  unsignalled : Nat := 0
  /-- SHA-384 of the last report ATTEST delivered on this aperture (R432). -/
  lastReport : List Byte := []
  deriving DecidableEq, Repr

/-- The memories of a helper processor (R442). -/
structure Helper where
  code : List Byte := []
  data : List Byte := []
  deriving DecidableEq, Repr

/-- A measurement log entry (R429). -/
structure MeasEnt where
  bytes : List Byte
  deriving DecidableEq, Repr

/-- Why a partition is being reset, for the end of its reset (R305, R316, R416). -/
inductive ResetWhy where
  | command (ap : Nat) | destroy (ap : Nat) | session | sessionEnd (ap : Nat)
  deriving DecidableEq, Repr

/-- One partition (R311, R428). -/
structure Part where
  st : PartSt := .none
  session : Option Session := none
  /-- Time limit of a drain in ms, and the aperture that asked for it. -/
  drainMs : Nat := 0
  drainAp : Option Nat := none
  resetting : Option ResetWhy := none
  /-- R416: its reset has passed steps 4 to 6; the clusters are being switched on. -/
  cleared : Bool := false
  root : Nat := 0
  rootEn : Bool := false
  p0 : List Byte := []
  p1 : List Byte := []
  plog : List MeasEnt := []
  plogOvf : Bool := false
  /-- R398: the rotation counts fixed so far, by rotation point. -/
  rots : List Nat := []
  deriving DecidableEq, Repr

/-- An entry of the event-log ring (R470). -/
structure LogEnt where
  seq : Nat
  time : Nat
  code : Nat
  sev : Nat
  part : Nat
  data : List Byte
  deriving DecidableEq, Repr

/-- Which copy of a two-copy area of the flash is in force, with its sequence number (R437); where none is, the next write takes copy 0. -/
structure AreaAt where
  seq : Nat := 0
  copy : Nat := 1
  deriving DecidableEq, Repr

/-- The settings block (R443). -/
structure Settings where
  /-- Whether it holds a self-test map, and an install baseline. -/
  hasMap : Bool := false
  hasInst : Bool := false
  fmt : Nat := 0
  trims : SMap Int := []
  thetaBoot : SMap Nat := []
  thetaInst : SMap Nat := []
  /-- Cold-plate fits by stack × 48 + site (R395). -/
  fits : SMap Nat := []
  /-- The self-test map, with the slot and the image digest that wrote it: the stacks whose spine failed, as a mask; the physical columns and
  core columns that failed (die × 256 + column, and that × 64 + core column); and the failed port I/O dies, as a mask. -/
  mapSlot : Nat := 0
  mapDigest : List Byte := []
  mapSpine : Nat := 0
  mapPorts : Nat := 0
  mapCols : List Nat := []
  mapCores : List Nat := []
  deriving DecidableEq, Repr

/-- The device (R310, R407 to R412, R424, R428, R434, R439). -/
structure Dev where
  st : DevSt := .boot
  bootStep : Nat := 0
  failCode : Nat := 0
  /-- The time base in ns (R464). -/
  time : Nat := 0
  /-- Steering: counting 200 ppm fast, and the ticks counted towards the next extra ns (R465). -/
  fast : Bool := false
  fastAcc : Nat := 0
  /-- The time base after its latest forward step (R465): an exchange begun before it gives no offset. -/
  stepAt : Nat := 0
  /-- The nanoseconds of the local clock since package reset (R466). -/
  clock : Nat := 0
  /-- The running image: its slot, VERSION, SVN and SETFMT (R438); none while the ROM serves. -/
  runSlot : Option Nat := none
  version : Nat := 0
  svn : Nat := 0
  /-- The digest of the running image (R428, R443). -/
  runDigest : List Byte := []
  /-- The image that the ROM has verified, as copied into the lead I/O die (R438). -/
  image : List Byte := []
  /-- The helpers released, and the helpers' memories, both by component kind (R442). -/
  helpers : List Nat := []
  helperMem : SMap Helper := []
  setfmt : Nat := 0
  fellBack : Bool := false
  fastPath : Bool := false
  fastBoots : Nat := 0
  /-- R408: the previous boot reached CONFIG; a stop that forbids the fast path has happened. -/
  reachedConfig : Bool := false
  /-- DEV_COMMIT has been given and READY not reached (R412). -/
  committing : Bool := false
  noFast : Bool := false
  chainValid : Bool := false
  /-- Boot control (R439). -/
  active : Nat := 0
  lastGood : Nat := 0xFF
  bootAt : AreaAt := {}
  rollback : Nat := 0
  /-- How many bits of the owner-lock field are burned, the slots' key hashes and the slots whose release bit is burned (R434). -/
  lockBits : Nat := 0
  ownerSlots : SMap (List Byte) := []
  ownerReleased : List Nat := []
  supplyLost : Bool := false
  /-- The device session (R302). -/
  session : Option Session := none
  /-- D0 to D4 (R428); an empty list stands for 48 zero bytes. -/
  meas : SMap (List Byte) := []
  dlog : List MeasEnt := []
  dlogOvf : Bool := false
  /-- The event-log ring, oldest first, and the number of the next event (R470). -/
  log : List LogEnt := []
  logSeq : Nat := 0
  logStack : Nat := 0
  /-- Severe events waiting for the flash, and those not copied (R471). -/
  persistQ : List LogEnt := []
  persistLost : Nat := 0
  /-- The external flash by byte (R436); an unlisted byte is erased. -/
  flash : List Host.Cell := []
  /-- The bus mode of the flash: 8D-8D-8D (R458). -/
  flash8D : Bool := false
  /-- The persistent log as Meridian writes it (R472): the sequence number and the place of the sector being filled, and its entries so far. -/
  plogNum : Nat := 0
  /-- Whether this boot has found where the persistent log stands; its sector, that sector's number, and the entries in it. -/
  plogFound : Bool := false
  plogPos : Nat := 0
  plogUsed : Nat := 0
  /-- R272: tables of a stack's correctable-error log that wait to be copied to the persistent log, with the entry of `OVF`. -/
  logCopies : List (Nat × List MemLog) := []
  bootNo : Nat := 0
  /-- The settings in force (R443, R444). -/
  settings : Settings := {}
  setAt : AreaAt := {}
  /-- Erase counts by sector, and the counts at the last table write (R446). -/
  wear : SMap Nat := []
  wearAt : SMap Nat := []
  wearCopy : AreaAt := {}
  /-- The soft-repair record in force (R275), and whether there is one. -/
  repair : List Nat := []
  repairAt : AreaAt := {}
  repairOn : Bool := false
  repairFull : Bool := false
  /-- The fuse map (R34, R36): the physical columns that it retires (die × 256 + column), and the physical core columns (the same × 64 + core
  column). -/
  fuseCols : List Nat := []
  fuseCores : List Nat := []
  /-- The spare rows and bit-column groups that this package reset has switched in for entries of the soft-repair record (R274). -/
  spares : List Nat := []
  /-- Sparing: by logical cluster, the physical column (R34), and the physical core column that its spare replaces (32 where the spare is the one that
  failed), where not the plain ones. -/
  colMap : SMap Nat := []
  coreMap : SMap Nat := []
  /-- Port I/O dies that failed the self-test (R409). -/
  deadPortDies : List Nat := []
  /-- R406: the rails that have faulted since the package reset; none is written again. -/
  failedRails : List Rail := []
  /-- R403: a reset follows FW_ACTIVATE's reply in SAFE-TALK. -/
  resetDue : Bool := false
  /-- R404: the package reset is held; R454. -/
  held : Bool := true
  /-- R406: VIO rail 0 has faulted. -/
  frozen : Bool := false
  deriving DecidableEq, Repr

/-- The PCIe function outside its apertures (R278 to R283). -/
structure Pcie where
  drops : W64 := 0
  d3hot : Bool := false
  /-- MSI-X table words by number (4 of 32 bits per entry) and pending bits. -/
  msixTable : SMap W32 := []
  msixPend : List Nat := []
  /-- The posted writes sent to host memory, oldest first (R280). -/
  posted : List (Nat × List Byte) := []
  /-- The read requests sent to host memory, oldest first: address and bytes (R278). -/
  reads : List (Nat × Nat) := []
  /-- The maximum payload size and the maximum read request size that the host has programmed (R278). -/
  maxPayload : Nat := 128
  maxReadReq : Nat := 512
  /-- The error status of AER (R278). -/
  aer : Nat := 0
  /-- The apertures whose command Meridian performed last (R291), and whose chunk the lead I/O die served last (R323). -/
  turn : Nat := 15
  chunkTurn : Nat := 15
  /-- The vectors signalled, oldest first (R283). -/
  signals : List Nat := []
  deriving DecidableEq, Repr

/-- The sideband pins and the tray's reports (R394, R397, R453 to R456). -/
structure Side where
  vaux : Bool := true
  pwrgd : Bool := false
  pkgRstLow : Bool := false
  thermTrip : Bool := false
  /-- Coolant readings in 1/16 °C and 0.01 L/min; none until written (R394). -/
  inlet : Option Int := none
  outlet : Option Int := none
  flow : Option Nat := none
  /-- Checks (1 ms each) since each reading was written last (R394). -/
  inletAge : Nat := 0
  outletAge : Nat := 0
  flowAge : Nat := 0
  /-- Step 1 of a boot has started since VAUX was applied: the SMBus interface answers (R456). -/
  smbUp : Bool := false
  coolBad : Bool := false
  inletOut : Bool := false
  drift : Bool := false
  alertMask : Nat := 0
  /-- The straps SMB_ADDR[1:0] (R453, R456), the pulses of FL_RST_N driven (R458), and whether the next rise of power-good begins a package reset: VAUX
  has been applied since the last one (R403). -/
  smbAddr : Nat := 0
  flResets : Nat := 0
  coldDue : Bool := true
  /-- Values the device drove in answer to SMBus reads, oldest first. -/
  smbusOut : List Nat := []
  /-- AVSBus setpoint writes (bus, rail select, mV), oldest first (R361, R457). -/
  avsOut : List (Nat × Nat × Nat) := []
  deriving DecidableEq, Repr

/-- A class of the power cap (R375). -/
structure PClass where
  floor : Nat := 0
  ceil : Nat := 0
  /-- The latest grant in mW; estimate, measurement and governing draw in watts (R376 to R380). -/
  grant : Nat := 0
  est : Nat := 0
  meas : Nat := 0
  gov : Nat := 0
  /-- R380: windows plausible in a row while implausible, mismatching windows in a row, agreeing windows in a row. -/
  implausible : Bool := false
  okWin : Nat := 0
  badWin : Nat := 0
  mismatch : Bool := false
  recalWin : Nat := 0
  /-- The leakage term of the estimate in watts (R379), and the recalibrations that have refitted the class's coefficients (R380). -/
  leak : Nat := 0
  refits : Nat := 0
  deriving DecidableEq, Repr

/-- The power cap and the energy counters (R313, R375 to R380, R474). -/
structure Power where
  /-- In units of 100 W. -/
  cap : Nat := 240
  order : Nat := 0x24
  links : PClass := {}
  memory : PClass := {}
  compute : PClass := {}
  ramp : Nat := 20
  unclassed : Nat := 0
  /-- The sum of the latest grants, the unclassed draw among them, in mW (R376). -/
  prevTotal : Nat := 0
  capUnmet : Bool := false
  /-- The latest reading of each rail of AVSBus, by bus × 16 + rail select: mV and 0.1 A (R378, R473). -/
  rails : SMap (Nat × Int) := []
  /-- Ticks since the last CAP_UNMET (R377). -/
  capTicks : Nat := 0
  ePackage : W64 := 0
  eLinks : W64 := 0
  eMemory : W64 := 0
  eCompute : W64 := 0
  eUnclassed : W64 := 0
  /-- THERMAL_SET: floor in °C, hold in minutes, rate in 0.5 °C per minute (R400). -/
  warmFloor : Nat := 55
  warmHold : Nat := 30
  warmRate : Nat := 4
  deriving DecidableEq, Repr

end Sys2Proof.Machine
end

