-- ==== Sys2Proof/Machine/LinkState.lean ====
section
/-! DEFINITION. The state of one Rorek Link port (chapter 12). -/

namespace Sys2Proof.Machine

/-- `LNK_STAT.STATE` (R338). -/
inductive PortSt where
  | disabled | down | training | testing | securing | active | retrain
  deriving DecidableEq, Repr

/-- A message waiting to be sent (R345, R346): its virtual channel, its 16 header bytes and its payload in the clear. -/
structure OutMsg where
  vc : Nat
  tagged : Bool
  hdr : List Byte
  payload : List Byte
  deriving DecidableEq, Repr

/-- A message received, or being received, on a virtual channel (R345): its bytes as they came, whether it carries a tag, the count of R349 that
it takes, and the time base when its first unit arrived (R357). -/
structure InMsg where
  vc : Nat
  tagged : Bool
  count : Nat
  arrived : Nat
  bytes : List Byte
  deriving DecidableEq, Repr

/-- A data flit kept for replay (R343): its sequence number and its 252 bytes before the CRC. -/
structure SentFlit where
  seq : Nat
  body : List Byte
  deriving DecidableEq, Repr

/-- A link chain's requests and progress for one partition (R354 to R356). -/
inductive ChainSt where
  | idle | running | waiting | ended | error
  deriving DecidableEq, Repr

/-- A link chain descriptor (R355). -/
structure ChainDesc where
  loc : Nat := 0
  lspace : Nat := 0
  kind : Nat := 0
  rpart : Nat := 0
  notify : Bool := false
  nflag : Nat := 0
  remote : Nat := 0
  rspace : Nat := 0
  len : Nat := 0
  bid : Nat := 0
  wcore : Nat := 0
  wflag : Nat := 0
  wcount : Nat := 0
  score : Nat := 0
  sflag : Nat := 0
  sen : Bool := false
  next : Nat := 0
  last : Bool := false
  ladv : Int := 0
  radv : Int := 0
  rep : Nat := 1
  deriving DecidableEq, Repr

/-- A link chain of one partition on one port (R354, R355, R420). -/
structure Chain where
  st : ChainSt := .idle
  code : Nat := 0
  descAddr : Nat := 0
  cur : Option ChainDesc := none
  iter : Nat := 0
  /-- Bytes of the iteration for which messages have been sent. -/
  sent : Nat := 0
  /-- R420: a salvage chain skips waits and makes no signals. -/
  salvage : Bool := false
  /-- A BARRIER of the descriptor has been sent (R355). -/
  barSent : Bool := false
  deriving DecidableEq, Repr

/-- A request outstanding at the neighbour (R355): its tag, partition and, for a GET, where its data go. Partition 6 stands for a request
whose chain has stopped: its answer is awaited only to free its tag. -/
structure LinkReq where
  mtag : Nat
  part : Nat
  isGet : Bool
  space : Nat
  addr : Nat
  len : Nat
  deriving DecidableEq, Repr

/-- A neighbour's RPUT whose reduction packets await their answers (R350). -/
structure RputJob where
  mtag : Nat
  dpart : Nat
  spart : Nat
  pids : List Nat
  /-- Statuses in message byte order: the first that is not COMMIT is the answer (R347). -/
  bad : Option (Nat × Nat)
  deriving DecidableEq, Repr

/-- PUTs of one sender to one core since the previous NOTIFY (R352). -/
structure NotifyRec where
  spart : Nat
  core : Nat
  dropped : Bool
  deriving DecidableEq, Repr

/-- A PUT or GETRESP of the neighbour whose bytes a port writes (R350): its header, and the packets. -/
structure LinkJob where
  hdr : List Byte
  job : OutJob
  deriving DecidableEq, Repr

/-- One Rorek Link port (R327 to R358). -/
structure Port where
  st : PortSt := .disabled
  /-- `LNK_STAT.WIDTH`: 0 for 48, 1 for 40, 2 for 32, 3 for none. -/
  width : Nat := 0
  reason : Nat := 0
  txmap : Nat := 0
  rxmap : Nat := 0
  peer : Nat := 0
  pport : Nat := 0
  txFlits : W64 := 0
  rxFlits : W64 := 0
  replays : W64 := 0
  crcErr : W64 := 0
  uncorr : W64 := 0
  corr : SMap W64 := []
  authFail : W64 := 0
  retrains : W64 := 0
  txBytes : W64 := 0
  rxBytes : W64 := 0
  /-- Flits sent and accepted at the last tick of the cap controller (R378). -/
  estFlits : W64 := 0
  /-- Named by DEV_COMMIT (R337); its first attempt has ended (R412). -/
  named : Bool := false
  firstDone : Bool := false
  /-- Training step of R337 in progress, 0 for none. -/
  step : Nat := 0
  /-- Receive lanes ready under R334 and not failed since (R336). -/
  rxReady : Nat := 0
  txReady : Nat := 0
  /-- The own receiver asks for a retrain in the port's lane markers (R332, R340). -/
  retrainReq : Bool := false
  /-- How many flits had been sent when the lanes started, and the words received since then (R332, R333). -/
  txFrom : Nat := 0
  rxWords : Nat := 0
  /-- By physical lane, what decoding has left wrong in the message of the codeword being delivered: (symbol, difference) (R331, R333). -/
  rxResid : SMap (List (Nat × Nat)) := []
  /-- Corrected symbols and uncorrectable codewords of each lane in the current 1-second window (R336). -/
  winCorr : SMap Nat := []
  winUncorr : SMap Nat := []
  /-- SEQ of the last data flit accepted, and whether NAK is set (R341, R343). -/
  ack : Nat := 0xFFF
  nak : Bool := false
  /-- A data flit has been rejected since the last accepted one (R343). -/
  rejecting : Bool := false
  /-- Units received, and units freed, since the link layer started, by virtual channel (R342). -/
  rxUsed : SMap Nat := []
  rxFreed : SMap Nat := []
  /-- The incomplete message of each virtual channel that has one (R345). -/
  rxPart : List InMsg := []
  /-- Messages received whole and not yet handled, oldest first. -/
  inbox : List InMsg := []
  /-- FINISH has begun to arrive: from it on, every message carries a tag (R349). -/
  finRecv : Bool := false
  /-- Next data SEQ to send, the neighbour's ACK, and the replay buffer (R343). -/
  txSeq : Nat := 0
  txAck : Nat := 0xFFF
  replay : List SentFlit := []
  /-- Replays in a row of the oldest flit (R339). -/
  replayRun : Nat := 0
  /-- Units sent, and the neighbour's credit fields as last read, by virtual channel (R342). -/
  txUsed : SMap Nat := []
  crdSeen : SMap Nat := []
  /-- Messages of which nothing has been sent, oldest first. -/
  txMsgs : List OutMsg := []
  /-- The 16-byte units left of the message in progress on each virtual channel. -/
  txCur : SMap (List (List Byte)) := []
  /-- R342: the last unit of VC1 and VC2 sent was of this channel. -/
  txLast : Nat := 2
  /-- Flits sent, oldest first (256 bytes each). -/
  txOut : List (List Byte) := []
  /-- Keys of the two directions, and the message counts (R348, R349). -/
  keyTx : List Byte := []
  keyRx : List Byte := []
  keyed : Bool := false
  finSent : Bool := false
  txCount : Nat := 0
  rxCount : Nat := 0
  /-- Key setup: steps received (1 HELLO, 2 CERT, 3 KEYX, 4 FINISH), the HELLO payloads, the neighbour's chain and its CERT payloads,
  and the ephemeral private key. -/
  hs : Nat := 0
  helloOwn : List Byte := []
  helloPeer : List Byte := []
  certPeer : List Byte := []
  eph : Nat := 0
  reqs : List LinkReq := []
  chains : SMap Chain := []
  /-- The partition whose chain sent the latest message (R354). -/
  lastPart : Nat := 5
  /-- BARRIER identifiers received and not yet matched, with DPART (R355). -/
  barriers : List (Nat × Nat) := []
  rputs : List RputJob := []
  /-- R146, R350: the PUT or GETRESP whose packets have been sent in part. -/
  job : Option LinkJob := none
  notes : List NotifyRec := []
  /-- R357: T1 of the last TIMESYNC received and the time base at its arrival; own T1 echoes. -/
  lastT1 : Nat := 0
  lastT4 : Nat := 0
  haveSync : Bool := false
  /-- The offset measured last, neighbour minus own, in ns, and the local clock then (R465, R466). -/
  offset : Option Int := none
  offAt : Nat := 0
  delay : Int := 0
  deriving DecidableEq, Repr

end Sys2Proof.Machine
end

