-- ==== Sys2Proof/Machine/State.lean ====
section
/-! DEFINITION. The state of the whole device, with the queue of waiting commands, and its value after reset. -/

namespace Sys2Proof.Machine

/-- What an event that is not due yet waits for. -/
inductive Wait where
  /-- A QNT of a core, which reads the half that it would write (R81). -/
  | qnt (core op : Nat)
  /-- The spring step that holds the bank of a location (R225), which the requester at an endpoint would use. -/
  | bank (loc : Nat) (src : Endpoint)
  /-- The turn of a switch output that serves another packet first (R161). -/
  | turn
  deriving DecidableEq, Repr

/-- Everything the spec gives the package (R21 and the chapters it names), and the model's own fields:
the queue of commands, the counter of free values, and the traces of what left on the pins. -/
structure State where
  /-- The commands waiting, first in, first out. -/
  pending : List Instr := []
  /-- Memory dies per stack and ports fitted (R2, R8). -/
  mdies : Nat := 4
  ports : Nat := 6
  serial : Nat := 1
  rev : Nat := 1
  /-- By logical core index (R22). -/
  cores : SMap Core := []
  /-- By die-and-cluster number, die × 256 + cluster (R312). -/
  clusters : SMap Cluster := []
  stks : SMap Stack := []
  mem : Mem := {}
  net : Net := {}
  /-- The translation units of the lead I/O die and of the port I/O dies (R193). -/
  xlead : XUnit := {}
  xport : SMap XUnit := []
  walks : List Walk := []
  nextWalk : Nat := 0
  parts : SMap Part := []
  aps : SMap Aperture := []
  pcie : Pcie := {}
  links : SMap Port := []
  dev : Dev := {}
  power : Power := {}
  side : Side := {}
  bars : List Barrier := []
  nextBar : Nat := 0
  /-- The event counts of the current microsecond, from which the estimates come (R378): by cluster × 16 + kind. -/
  act : SMap Nat := []
  /-- The same since the latest plausibility check of the cluster's site (R387). -/
  actMs : SMap Nat := []
  /-- Scratchpad cells that cannot hold a value (R139), with the value at which each sticks, by `spmWordKey` of their physical place: a defect of
  the silicon, which no reset mends. -/
  stuck : SMap (List (Nat × Bool)) := []
  /-- Cells of DRAM and Tarn that cannot hold a value (R208): by `memWordKey` of the word's physical place, (symbol position, mask of its stuck bits,
  their values). -/
  stuckMem : SMap (List (Nat × Nat × Nat)) := []
  /-- The model's counter of free values drawn (random nonces and keys). -/
  free : Nat := 0
  /-- The model's own: set while an event is worked out that must wait, and clear between commands (R81, R225). -/
  blocked : Option Wait := none
  deriving DecidableEq, Repr

/-- Why the machine stops. No command of the table stops it: the spec gives each an effect, or none, in every state. -/
inductive Fault where
  /-- Raised by nobody. Safe: it stands for a state that no command reaches. -/
  | unreachable
  deriving DecidableEq, Repr

/-- Why a command has no meaning. -/
inductive Refusal where
  /-- Raised by an arm of `exec` whose command has no meaning yet. Safe: the machine stops. -/
  | notModelled (mnemonic : String)
  deriving DecidableEq, Repr

/-- The device as VAUX has been applied and a package reset is held, with power-good low (R404, R454, R460):
every register at its Reset value (R17) and the variant KN-6C-M4-P6 (R9). -/
def State.reset : State :=
  { power :=
      { links := { floor := 12, ceil := 18 }
        memory := { floor := 35, ceil := 81 }
        compute := { floor := 30, ceil := 240 } } }

end Sys2Proof.Machine
end

