-- ==== Sys2Proof/Machine/Store.lean ====
section
/-! DEFINITION. Reading and writing sparse tables, sorted sets and fixed-width counters. -/

namespace Sys2Proof.Machine

/-- The entry of key `k`, or the table's default. -/
def smapGet {α : Type} (d : α) : SMap α → Nat → α
  | [], _ => d
  | (k', v) :: m, k => if k = k' then v else smapGet d m k

/-- The table without key `k`. -/
def smapErase {α : Type} : SMap α → Nat → SMap α
  | [], _ => []
  | (k', v) :: m, k => if k = k' then smapErase m k else (k', v) :: smapErase m k

/-- The table with key `k` put in its place. -/
def smapInsert {α : Type} : SMap α → Nat → α → SMap α
  | [], k, v => [(k, v)]
  | (k', v') :: m, k, v =>
    if k < k' then (k, v) :: (k', v') :: m
    else if k = k' then (k, v) :: m
    else (k', v') :: smapInsert m k v

/-- The table with `v` at key `k`, in canonical form: writing the default removes the entry. -/
def smapSet {α : Type} [DecidableEq α] (d : α) (m : SMap α) (k : Nat) (v : α) : SMap α :=
  if v = d then smapErase m k else smapInsert m k v

/-- Keys strictly rising and all above `lo`. -/
def smapSorted {α : Type} : Option Nat → SMap α → Bool
  | _, [] => true
  | lo, (k, _) :: m => (match lo with | none => true | some l => decide (l < k)) && smapSorted (some k) m

/-- The canonical form: keys strictly rising, no entry equal to the default. -/
def smapWf {α : Type} [DecidableEq α] (d : α) (m : SMap α) : Bool :=
  smapSorted none m && m.all fun e => !decide (e.2 = d)

/-- The table with the entry of `k` changed by `f`. -/
def smapUpd {α : Type} [DecidableEq α] (d : α) (m : SMap α) (k : Nat) (f : α → α) : SMap α :=
  smapSet d m k (f (smapGet d m k))

/-- Only the entries whose key satisfies `p`. -/
def smapKeep {α : Type} (p : Nat → Bool) (m : SMap α) : SMap α := m.filter fun e => p e.1

/-- A sorted set of numbers with `k` in it. -/
def setIns : List Nat → Nat → List Nat
  | [], k => [k]
  | x :: xs, k => if k < x then k :: x :: xs else if k = x then x :: xs else x :: setIns xs k

/-- A sorted set of numbers without `k`. -/
def setDel (xs : List Nat) (k : Nat) : List Nat := xs.filter fun x => x != k

/-- One byte of memory: an unlisted address reads as zero (R139, R208). -/
def memByte (m : List Host.Cell) (a : Nat) : Byte := smapGet 0 m a

/-- Memory with byte `b` at address `a`. -/
def memPut (m : List Host.Cell) (a : Nat) (b : Byte) : List Host.Cell := smapSet 0 m a b

/-- `n` bytes from address `a`. -/
def memBytes (m : List Host.Cell) (a n : Nat) : List Byte := (List.range n).map fun i => memByte m (a + i)

/-- Memory with the given bytes from address `a`. -/
def memPuts (m : List Host.Cell) (a : Nat) : List Byte → List Host.Cell
  | [] => m
  | b :: bs => memPuts (memPut m a b) (a + 1) bs

/-- Memory with the given bytes from address `a`, leaving the bytes whose mask is clear. -/
def memMask (m : List Host.Cell) (a : Nat) : List (Option Byte) → List Host.Cell
  | [] => m
  | none :: bs => memMask m (a + 1) bs
  | some b :: bs => memMask (memPut m a b) (a + 1) bs

/-- Memory with the bytes from `lo` to `hi` − 1 taken out, which then read as zero. -/
def memClear (m : List Host.Cell) (lo hi : Nat) : List Host.Cell :=
  m.filter fun e => !(decide (lo ≤ e.1) && decide (e.1 < hi))

/-- A counter that saturates at `top` (R467). -/
def satAdd (x n top : Nat) : Nat := min (x + n) top

/-- A 16-bit count that saturates at 0xFFFF (R73, R117). -/
def sat16 (x : Nat) : Nat := min x 0xFFFF

/-- The numbers `lo` to `hi` − 1. -/
def span (lo hi : Nat) : List Nat := (List.range (hi - lo)).map (lo + ·)

/-- The first element that satisfies `p` taken out of a list. -/
def takeOut {α : Type} (p : α → Bool) : List α → Option (α × List α)
  | [] => none
  | x :: xs => if p x then some (x, xs) else (takeOut p xs).map fun r => (r.1, x :: r.2)

/-- Elements changed by `f` where `p` holds. -/
def mapIf {α : Type} (p : α → Bool) (f : α → α) (xs : List α) : List α :=
  xs.map fun x => if p x then f x else x

/-- Division rounded up. -/
def ceilDiv (a b : Nat) : Nat := (a + b - 1) / b

/-- Consecutive groups of at most `n` elements (fuel: the list's length). -/
def groupsOf {α : Type} (n : Nat) (xs : List α) : List (List α) :=
  (List.range (ceilDiv xs.length n)).map fun i => (xs.drop (n * i)).take n

/-- A run of `n` bytes from `a` on cut at the multiples of `m`: (address, bytes). -/
def cutEvery (m a n : Nat) : List (Nat × Nat) :=
  if n = 0 then [] else
  (span (a / m) ((a + n - 1) / m + 1)).map fun g =>
    let x := max a (g * m)
    (x, min (a + n) (g * m + m) - x)

end Sys2Proof.Machine
end

