-- ==== Sys2Proof/Machine/Crypto.lean ====
section
/-! DEFINITION. The standards that the spec names for its keys (R303, R348, R349, R424, R425, R429, R432, R433, R437): SHA-384, HMAC, HKDF, AES-256-GCM and
brainpoolP384r1. The spec names them and does not print them: their tables are the public standards' (FIPS 180-4, FIPS 197, SP 800-38D, RFC 5869,
RFC 5639). PRESUMED. -/

namespace Sys2Proof.Machine

/-- The number in a big-endian byte list. -/
def beNat (bs : List Byte) : Nat := bs.foldl (fun a b => 256 * a + b.toNat) 0

/-- `n` big-endian bytes of a number. -/
def beBytes (n x : Nat) : List Byte := (leBytes n x).reverse

/-- Two byte lists added bit by bit, as long as the shorter. -/
def xorBytes (a b : List Byte) : List Byte := List.zipWith (· ^^^ ·) a b

/-! ### SHA-384 -/

/-- The first `n` numbers from `m` on that no smaller one above 1 divides, with `fuel` candidates to try. -/
def primesFrom : Nat → Nat → Nat → List Nat
  | 0, _, _ => []
  | _, 0, _ => []
  | fuel + 1, n + 1, m =>
    if (span 2 m).any fun d => m % d == 0 then primesFrom fuel (n + 1) (m + 1) else m :: primesFrom fuel n (m + 1)

/-- ⌊x^(1/k)⌋, bit by bit from bit `i` − 1 down. -/
def rootBits (k x : Nat) : Nat → Nat → Nat
  | 0, r => r
  | i + 1, r => rootBits k x i (if (r + 2 ^ i) ^ k ≤ x then r + 2 ^ i else r)

/-- The first 64 bits of the fraction of the `k`-th root of a number. -/
def rootFraction (k x : Nat) : Nat := rootBits k (x * 2 ^ (64 * k)) 72 0 % 2 ^ 64

/-- The round constants of SHA-384: from the cube roots of the first eighty primes. -/
def shaK : List Nat := (primesFrom 410 80 2).map (rootFraction 3)

/-- The initial hash value of SHA-384: from the square roots of the ninth to the sixteenth prime. -/
def shaInit : List Nat := ((primesFrom 60 16 2).drop 8).map (rootFraction 2)

/-- A sum of 64-bit words. -/
def add64 (a b : Nat) : Nat := (a + b) % 2 ^ 64

/-- A 64-bit word rotated right. -/
def rotr64 (x n : Nat) : Nat := x / 2 ^ n + x % 2 ^ n * 2 ^ (64 - n)

/-- The message schedule: each further word from the last sixteen, which `w` holds newest first. -/
def shaExpand : Nat → List Nat → List Nat
  | 0, w => w
  | n + 1, w =>
    let at_ := fun i => w.getD i 0
    let s0 := rotr64 (at_ 14) 1 ^^^ rotr64 (at_ 14) 8 ^^^ (at_ 14 / 2 ^ 7)
    let s1 := rotr64 (at_ 1) 19 ^^^ rotr64 (at_ 1) 61 ^^^ (at_ 1 / 2 ^ 6)
    shaExpand n ((at_ 15 + s0 + at_ 6 + s1) % 2 ^ 64 :: w)

/-- One round over the eight working words. -/
def shaRound (h : List Nat) (kw : Nat) : List Nat :=
  match h with
  | [a, b, c, d, e, f, g, i] =>
    let t1 := i + (rotr64 e 14 ^^^ rotr64 e 18 ^^^ rotr64 e 41) + ((e &&& f) ^^^ ((2 ^ 64 - 1 - e) &&& g)) + kw
    let t2 := (rotr64 a 28 ^^^ rotr64 a 34 ^^^ rotr64 a 39) + ((a &&& b) ^^^ (a &&& c) ^^^ (b &&& c))
    [(t1 + t2) % 2 ^ 64, a, b, c, (d + t1) % 2 ^ 64, e, f, g]
  | _ => h

/-- One block of 128 bytes taken into the hash value. -/
def shaBlock (h : List Nat) (block : List Byte) : List Nat :=
  let w := (shaExpand 64 ((groupsOf 8 block).map beNat).reverse).reverse
  List.zipWith add64 h (((shaK.zip w).map fun e => e.1 + e.2).foldl shaRound h)

/-- SHA-384 (R424): 48 bytes. -/
def sha384 (bs : List Byte) : List Byte :=
  let n := bs.length
  let padded := bs ++ [0x80] ++ List.replicate ((111 + 128 - n % 128) % 128) 0 ++ beBytes 16 (8 * n)
  (((groupsOf 128 padded).foldl shaBlock shaInit).flatMap (beBytes 8)).take 48

/-- HMAC-SHA-384 under a key (R437). -/
def hmac384 (key bs : List Byte) : List Byte :=
  let k := bytesAt (if 128 < key.length then sha384 key else key) 0 128
  let pad := fun (v : Byte) => k.map (· ^^^ v)
  sha384 (pad 0x5C ++ sha384 (pad 0x36 ++ bs))

/-- The blocks of HKDF-Expand, each over the one before. -/
def hkdfBlocks (prk info : List Byte) : Nat → Nat → List Byte → List Byte
  | 0, _, _ => []
  | n + 1, i, t =>
    let t' := hmac384 prk (t ++ info ++ [BitVec.ofNat 8 i])
    t' ++ hkdfBlocks prk info n (i + 1) t'

/-- HKDF-Expand (R433): `n` bytes from a pseudorandom key. -/
def hkdfExpand (prk info : List Byte) (n : Nat) : List Byte := (hkdfBlocks prk info ((n + 47) / 48) 1 []).take n

/-- HKDF-SHA-384 (R348): input key material, salt, info, length. -/
def hkdf (ikm salt info : List Byte) (n : Nat) : List Byte := hkdfExpand (hmac384 salt ikm) info n

/-! ### AES-256-GCM (R303, R349) -/

/-- Twice an element of GF(2⁸) of AES. -/
def aesTwice (x : Nat) : Nat := if 128 ≤ x then (2 * x) ^^^ 0x11B else 2 * x

/-- The product of two elements of GF(2⁸) of AES, over the low `n` bits of the second. -/
def aesMul (x : Nat) : Nat → Nat → Nat
  | 0, _ => 0
  | n + 1, y => (if y % 2 = 1 then x else 0) ^^^ aesMul (aesTwice x) n (y / 2)

/-- The inverse in GF(2⁸), x²⁵⁴, and 0 for 0. -/
def aesInv (x : Nat) : Nat :=
  let sq := fun y => aesMul y 8 y
  let x2 := sq x
  let x3 := aesMul x2 8 x
  let x12 := sq (sq x3)
  let x15 := aesMul x12 8 x3
  let x240 := sq (sq (sq (sq x15)))
  aesMul (aesMul x240 8 x12) 8 x2

/-- The S-box of AES, computed. -/
def aesSub (x : Nat) : Nat :=
  let b := aesInv x
  let r := fun n => (b * 2 ^ n) % 256 + b / 2 ^ (8 - n)
  b ^^^ r 1 ^^^ r 2 ^^^ r 3 ^^^ r 4 ^^^ 0x63

/-- The S-box as a table. -/
def aesTable : List Nat := (List.range 256).map aesSub

/-- The 60 words of the key schedule, newest first; `i` counts them and `c` is the round constant. -/
def aesExpand (box : List Nat) : Nat → Nat → Nat → List (List Nat) → List (List Nat)
  | 0, _, _, w => w
  | n + 1, i, c, w =>
    let last := w.getD 0 []
    let sub := fun (x : List Nat) => x.map fun b => box.getD b 0
    let t := if i % 8 = 0 then
        match sub (last.drop 1 ++ last.take 1) with
        | b :: bs => (b ^^^ c) :: bs
        | [] => []
      else if i % 8 = 4 then sub last else last
    aesExpand box n (i + 1) (if i % 8 = 0 then aesTwice c else c) (List.zipWith (· ^^^ ·) (w.getD 7 []) t :: w)

/-- The fifteen round keys of a 32-byte key, 16 numbers each. -/
def aesKeys (box : List Nat) (key : List Byte) : List (List Nat) :=
  let w := ((groupsOf 4 (bytesAt key 0 32)).map fun g => g.map (·.toNat)).reverse
  let ws := (aesExpand box 52 8 1 w).reverse
  (List.range 15).map fun r => ((ws.drop (4 * r)).take 4).flatten

/-- SubBytes and ShiftRows of a state of 16 numbers, by columns. -/
def aesShift (box st : List Nat) : List Nat :=
  (List.range 16).map fun i => box.getD (st.getD ((i + 4 * (i % 4)) % 16) 0) 0

/-- MixColumns. -/
def aesMix (st : List Nat) : List Nat :=
  (List.range 16).map fun i =>
    let v := fun j => st.getD (i / 4 * 4 + (i + j) % 4) 0
    aesTwice (v 0) ^^^ (aesTwice (v 1) ^^^ v 1) ^^^ v 2 ^^^ v 3

/-- One block enciphered under the round keys. -/
def aesBlock (box : List Nat) (keys : List (List Nat)) (block : List Byte) : List Byte :=
  let add := List.zipWith (fun a b : Nat => a ^^^ b)
  let s0 := add (block.map (·.toNat)) (keys.getD 0 [])
  let s1 := ((keys.drop 1).take 13).foldl (fun st k => add (aesMix (aesShift box st)) k) s0
  (add (aesShift box s1) (keys.getD 14 [])).map (BitVec.ofNat 8)

/-- The product of GF(2¹²⁸) as GCM numbers its bits: `n` bits of `x` left, from the highest. -/
def ghashMul (x : Nat) : Nat → Nat → Nat → Nat
  | 0, _, z => z
  | n + 1, v, z =>
    ghashMul x n (if v % 2 = 1 then (v / 2) ^^^ (0xE1 * 2 ^ 120) else v / 2) (if natBit x n then z ^^^ v else z)

/-- Bytes filled up with zeros to whole blocks of 16. -/
def pad16 (bs : List Byte) : List Byte := bs ++ List.replicate ((16 - bs.length % 16) % 16) 0

/-- GHASH of additional data and ciphertext under the hash key. -/
def ghash (h : Nat) (aad ct : List Byte) : Nat :=
  let bs := pad16 aad ++ pad16 ct ++ beBytes 8 (8 * aad.length) ++ beBytes 8 (8 * ct.length)
  (groupsOf 16 bs).foldl (fun y b => ghashMul (y ^^^ beNat b) 128 h 0) 0

/-- The counter block of a nonce: its 12 bytes, little-endian as every field (R15), and the counter. -/
def gcmCounter (nonce i : Nat) : List Byte := leBytes 12 nonce ++ beBytes 4 i

/-- The keystream of counter mode added to the data, from counter 2. -/
def gcmStream (key : List Byte) (nonce : Nat) (data : List Byte) : List Byte :=
  let box := aesTable
  let keys := aesKeys box key
  let groups := groupsOf 16 data
  (groups.zip (List.range groups.length)).flatMap fun g => xorBytes g.1 (aesBlock box keys (gcmCounter nonce (2 + g.2)))

/-- The 16-byte tag of a ciphertext and its additional data. -/
def gcmTag (key : List Byte) (nonce : Nat) (aad ct : List Byte) : List Byte :=
  let box := aesTable
  let keys := aesKeys box key
  let h := beNat (aesBlock box keys (List.replicate 16 0))
  xorBytes (beBytes 16 (ghash h aad ct)) (aesBlock box keys (gcmCounter nonce 1))

/-- AES-256-GCM (R303, R349): key, nonce, additional data, plain text; the ciphertext and the tag. -/
def gcmSeal (key : List Byte) (nonce : Nat) (aad plain : List Byte) : List Byte × List Byte :=
  let c := gcmStream key nonce plain
  (c, gcmTag key nonce aad c)

/-- The plain text of a ciphertext whose tag passes (R303, R349). -/
def gcmOpen (key : List Byte) (nonce : Nat) (aad cipher tag : List Byte) : Option (List Byte) :=
  if gcmTag key nonce aad cipher = tag then some (gcmStream key nonce cipher) else none

/-! ### brainpoolP384r1 (R425) -/

/-- The field's prime. -/
def ecP : Nat := 0x8CB91E82A3386D280F5D6F7E50E641DF152F7109ED5456B412B1DA197FB71123ACD3A729901D1A71874700133107EC53
/-- The curve's coefficients. -/
def ecA : Nat := 0x7BC382C63D8C150C3C72080ACE05AFA0C2BEA28E4FB22787139165EFBA91F90F8AA5814A503AD4EB04A8C7DD22CE2826
def ecB : Nat := 0x04A8C7DD22CE28268B39B55416F0447C2FB77DE107DCD2A62E880EA53EEB62D57CB4390295DBC9943AB78696FA504C11
/-- The base point. -/
def ecG : Nat × Nat :=
  (0x1D1C64F068CF45FFA2A63A81B7C13F6B8847A3E77EF14FE3DB7FCAFE0CBD10E8E826E03436D646AAEF87B2E247D4AF1E,
   0x8ABE1D7520F9C2A45CB1EB8E95CFD55262B70B29FEEC5864E19C054FF99129280E4646217791811142820341263C5315)
/-- The order of the base point. -/
def ecN : Nat := 0x8CB91E82A3386D280F5D6F7E50E641DF152F7109ED5456B31F166E6CAC0425A7CF3AB6AF6B7FC3103B883202E9046565

/-- A power modulo `m`, over the low `n` bits of the exponent. -/
def powMod (m : Nat) : Nat → Nat → Nat → Nat → Nat
  | 0, _, _, r => r
  | n + 1, b, e, r => powMod m n (b * b % m) (e / 2) (if e % 2 = 1 then r * b % m else r)

/-- The inverse modulo a prime below 2³⁸⁴. -/
def invMod (m x : Nat) : Nat := powMod m 384 (x % m) (m - 2) 1

/-- A point without a division: its x is X / Z², its y is Y / Z³, and Z = 0 stands for the point at infinity. -/
structure EcPoint where
  x : Nat
  y : Nat
  z : Nat
  deriving DecidableEq, Repr

/-- The point at infinity. -/
def ecZero : EcPoint := ⟨1, 1, 0⟩

/-- A point from its coordinates. -/
def ecAt (q : Nat × Nat) : EcPoint := ⟨q.1, q.2, 1⟩

/-- The coordinates of a point; none at infinity. -/
def ecXy (u : EcPoint) : Option (Nat × Nat) :=
  let i := invMod ecP u.z
  if u.z = 0 then none else some (u.x * (i * i % ecP) % ecP, u.y * (i * i % ecP * i % ecP) % ecP)

/-- Twice a point. -/
def ecTwice (u : EcPoint) : EcPoint :=
  let y2 := u.y * u.y % ecP
  let s := 4 * u.x * y2 % ecP
  let z2 := u.z * u.z % ecP
  let m := (3 * u.x * u.x + ecA * (z2 * z2 % ecP)) % ecP
  let x := (m * m + 2 * (ecP - s)) % ecP
  ⟨x, (m * (s + ecP - x) + 8 * (ecP - y2 * y2 % ecP)) % ecP, 2 * u.y * u.z % ecP⟩

/-- The sum of two points. -/
def ecAdd (u v : EcPoint) : EcPoint :=
  if u.z = 0 then v else if v.z = 0 then u else
  let zu := u.z * u.z % ecP
  let zv := v.z * v.z % ecP
  let a := u.x * zv % ecP
  let c := u.y * (zv * v.z % ecP) % ecP
  let h := (v.x * zu + ecP - a) % ecP
  let r := (v.y * (zu * u.z % ecP) + ecP - c) % ecP
  if h = 0 then (if r = 0 then ecTwice u else ecZero) else
  let h2 := h * h % ecP
  let h3 := h2 * h % ecP
  let w := a * h2 % ecP
  let x := (r * r + (ecP - h3) + 2 * (ecP - w)) % ecP
  ⟨x, (r * (w + ecP - x) + (ecP - h3) * c) % ecP, u.z * v.z % ecP * h % ecP⟩

/-- A multiple of a point, over the low `n` bits of the number. -/
def ecMul : Nat → Nat → EcPoint → EcPoint → EcPoint
  | 0, _, _, r => r
  | n + 1, k, u, r => ecMul n (k / 2) (ecTwice u) (if k % 2 = 1 then ecAdd r u else r)

/-- The point of 96 bytes, x then y, each big-endian (R425). -/
def ecPoint (bs : List Byte) : Nat × Nat := (beNat (bytesAt bs 0 48), beNat (bytesAt bs 48 48))

/-- Whether 96 bytes are a point of the curve (R425). -/
def onCurve (bs : List Byte) : Bool :=
  let q := ecPoint bs
  decide (q.1 < ecP) && decide (q.2 < ecP) && q.2 * q.2 % ecP == (q.1 * q.1 * q.1 + ecA * q.1 + ecB) % ecP

/-- A private key's number: from 1 to the order less 1. -/
def ecScalar (x : Nat) : Nat := x % (ecN - 1) + 1

/-- A point as its 96 bytes (R425). -/
def ecBytes (u : EcPoint) : List Byte :=
  match ecXy u with
  | some q => beBytes 48 q.1 ++ beBytes 48 q.2
  | none => List.replicate 96 0

/-- The public key of a private key. -/
def ecPublic (x : Nat) : List Byte := ecBytes (ecMul 384 (ecScalar x) (ecAt ecG) ecZero)

/-- The x-coordinate of the ECDH point of a private key and a public key (R348, R432): 48 bytes. -/
def ecdh (x : Nat) (key : List Byte) : List Byte := (ecBytes (ecMul 384 (ecScalar x) (ecAt (ecPoint key)) ecZero)).take 48

/-- Whether a signature over a digest passes under a public key (R425). -/
def ecdsaOk (key digest sig : List Byte) : Bool :=
  let q := ecPoint sig
  let w := invMod ecN q.2
  let z := beNat digest
  let u := ecAdd (ecMul 384 (z * w % ecN) (ecAt ecG) ecZero) (ecMul 384 (q.1 * w % ecN) (ecAt (ecPoint key)) ecZero)
  onCurve key && decide (0 < q.1 ∧ q.1 < ecN ∧ 0 < q.2 ∧ q.2 < ecN) && (match ecXy u with | some u => u.1 % ecN == q.1 | none => false)

/-- A signature over a digest by a private key, with the signer's secret number `k` (R425). -/
def ecdsaSign (x k : Nat) (digest : List Byte) : List Byte :=
  let r := (match ecXy (ecMul 384 (ecScalar k) (ecAt ecG) ecZero) with | some q => q.1 % ecN | none => 0)
  beBytes 48 r ++ beBytes 48 ((beNat digest + r * ecScalar x) * invMod ecN (ecScalar k) % ecN)

end Sys2Proof.Machine
end

