-- ==== Sys2Proof/Machine/Ops.lean ====
section
/-! DEFINITION. Access to the parts of the state, the numbering of cores, clusters and memory, and the address map
(R22, R156, R187, R192). -/

namespace Sys2Proof.Machine

/-- Whether the package acts at all: VAUX is there, no package reset is held (R404, R454), and VIO rail 0 has not failed, after which the
device holds its state until a package reset (R406). -/
def awake (s : State) : Bool := s.side.vaux && !s.dev.held && !s.dev.frozen

/-- What remains of an event that is not due yet: that a requester waits for a bank (R225). -/
def noteWait (w : Option Wait) (s : State) : State :=
  match w with
  | some (.bank l e) => if s.mem.waits.contains (l, e) then s else { s with mem := { s.mem with waits := s.mem.waits ++ [(l, e)] } }
  | _ => s

/-- The state `t` of the package of state `s`: what manufacture fixes (R2, R8) and the queue are no command's to change. An event that met
something it must wait for, a half that a running QNT reads (R81), a bank that a spring step holds (R225) or an output that serves another packet
first (R161), is not due yet: nothing else changes. -/
def ofPackage (s t : State) : State :=
  if t.blocked.isSome && s.blocked.isNone then noteWait t.blocked s
  else { t with pending := s.pending, mdies := s.mdies, ports := s.ports, serial := s.serial, rev := s.rev, blocked := s.blocked }

/-- The outcome of a command that a pin or the sideband carries, which the package takes also while it is held in reset. -/
def pinned (s t : State) : Host.Outcome State Fault Refusal := .next (ofPackage s t)

/-- The outcome of any other command: the state it makes where the package acts, and the state as it was elsewhere. -/
def live (s t : State) : Host.Outcome State Fault Refusal := if awake s then .next (ofPackage s t) else .next s

/-! ### The parts of the state -/

/-- The core with a logical core index. -/
def getCore (s : State) (c : Nat) : Core := smapGet {} s.cores c
/-- The state with one core changed. -/
def updCore (s : State) (c : Nat) (f : Core → Core) : State := { s with cores := smapUpd {} s.cores c f }
/-- The cluster with a die-and-cluster number. -/
def getClu (s : State) (dc : Nat) : Cluster := smapGet {} s.clusters dc
/-- The state with one cluster changed. -/
def updClu (s : State) (dc : Nat) (f : Cluster → Cluster) : State := { s with clusters := smapUpd {} s.clusters dc f }
/-- Sequencer `n` of a cluster. -/
def getSeq (s : State) (dc n : Nat) : Seqr := smapGet {} (getClu s dc).seqs n
/-- The state with one sequencer changed. -/
def updSeq (s : State) (dc n : Nat) (f : Seqr → Seqr) : State :=
  updClu s dc fun k => { k with seqs := smapUpd {} k.seqs n f }
/-- The stack with a number. -/
def getStk (s : State) (k : Nat) : Stack := smapGet {} s.stks k
/-- The state with one stack changed. -/
def updStk (s : State) (k : Nat) (f : Stack → Stack) : State := { s with stks := smapUpd {} s.stks k f }
/-- Memory die `d` of stack `k`. -/
def getMDie (s : State) (k d : Nat) : MDie := smapGet {} (getStk s k).mdie d
/-- The state with one memory die changed. -/
def updMDie (s : State) (k d : Nat) (f : MDie → MDie) : State :=
  updStk s k fun x => { x with mdie := smapUpd {} x.mdie d f }
/-- VCORE region `r` of the compute die of stack `k`. -/
def getRgn (s : State) (k r : Nat) : Rgn := smapGet {} (getStk s k).rgns r
/-- The state with one region changed. -/
def updRgn (s : State) (k r : Nat) (f : Rgn → Rgn) : State :=
  updStk s k fun x => { x with rgns := smapUpd {} x.rgns r f }
/-- Thermal site `i` of stack `k`. -/
def getSite (s : State) (k i : Nat) : Site := smapGet {} (getStk s k).sites i
/-- The state with one site changed. -/
def updSite (s : State) (k i : Nat) (f : Site → Site) : State :=
  updStk s k fun x => { x with sites := smapUpd {} x.sites i f }
/-- Partition `q`. -/
def getPart (s : State) (q : Nat) : Part := smapGet {} s.parts q
/-- The state with one partition changed. -/
def updPart (s : State) (q : Nat) (f : Part → Part) : State := { s with parts := smapUpd {} s.parts q f }
/-- Aperture `a`. -/
def getAp (s : State) (a : Nat) : Aperture := smapGet {} s.aps a
/-- The state with one aperture changed. -/
def updAp (s : State) (a : Nat) (f : Aperture → Aperture) : State := { s with aps := smapUpd {} s.aps a f }
/-- Rorek Link port `p`. -/
def getPort (s : State) (p : Nat) : Port := smapGet {} s.links p
/-- The state with one port changed. -/
def updPort (s : State) (p : Nat) (f : Port → Port) : State := { s with links := smapUpd {} s.links p f }
/-- The state with the device changed. -/
def updDev (s : State) (f : Dev → Dev) : State := { s with dev := f s.dev }
/-- The state with the fabric changed. -/
def updNet (s : State) (f : Net → Net) : State := { s with net := f s.net }
/-- The state with the memories changed. -/
def updMem (s : State) (f : Mem → Mem) : State := { s with mem := f s.mem }
/-- The state with the power cap changed. -/
def updPower (s : State) (f : Power → Power) : State := { s with power := f s.power }

/-! ### Numbering (R22) -/

/-- The cluster of a core, as die × 256 + cluster. -/
def lciDc (c : Nat) : Nat := c / 1024
/-- The die of a die-and-cluster number. -/
def dcDie (dc : Nat) : Nat := dc / 256
/-- The cluster number within its die. -/
def dcClu (dc : Nat) : Nat := dc % 256
/-- Whether a die-and-cluster number names a cluster (R22). -/
def dcOk (dc : Nat) : Bool := decide (dcDie dc < 6) && decide (dcClu dc < 192)
/-- Whether a logical core index names a core (R22). -/
def lciOk (c : Nat) : Bool := dcOk (lciDc c)
/-- The row of a core. -/
def lciRow (c : Nat) : Nat := (c / 32) % 32
/-- The column of a core. -/
def lciCol (c : Nat) : Nat := c % 32
/-- The partition that holds the stack of a die (R10). -/
def diePart (s : State) (d : Nat) : Option Nat := (getStk s d).part
/-- The partition of a cluster. -/
def dcPart (s : State) (dc : Nat) : Option Nat := diePart s (dcDie dc)
/-- The partition of a core. -/
def lciPart (s : State) (c : Nat) : Option Nat := dcPart s (lciDc c)
/-- The stacks of a partition. -/
def partStacks (s : State) (q : Nat) : List Nat := (List.range 6).filter fun k => (getStk s k).part == some q
/-- The die-and-cluster numbers of a die. -/
def dieDcs (d : Nat) : List Nat := (List.range 192).map (d * 256 + ·)
/-- The die-and-cluster numbers of a partition. -/
def partDcs (s : State) (q : Nat) : List Nat := (partStacks s q).flatMap dieDcs
/-- The cores with a listed state whose index satisfies `p`. -/
def coresWhere (s : State) (p : Nat → Core → Bool) : List Nat :=
  (s.cores.filter fun e => p e.1 e.2).map (·.1)
/-- The cores bound to a sequencer (R96), lowest index first. -/
def boundCores (s : State) (dc n : Nat) : List Nat :=
  coresWhere s fun c k => lciDc c == dc && k.bindEn && k.bindSeq == n
/-- The cores of a cluster with a listed state. -/
def cluCores (s : State) (dc : Nat) : List Nat := coresWhere s fun c _ => lciDc c == dc
/-- The clusters of a partition with a listed state. -/
def partClus (s : State) (q : Nat) : List Nat :=
  (s.clusters.filter fun e => dcPart s e.1 == some q).map (·.1)
/-- The cores of a partition with a listed state. -/
def partCores (s : State) (q : Nat) : List Nat := coresWhere s fun c _ => lciPart s c == some q
/-- The physical column of a logical column (R34). -/
def dcPhys (s : State) (dc : Nat) : Nat := smapGet (dcClu dc) s.dev.colMap dc
/-- The VCORE region of a cluster within its die (R360): the field that physically holds it. -/
def dcRgn (s : State) (dc : Nat) : Nat :=
  if dcPhys s dc < 192 then dcPhys s dc / 48 else Config.spareField (dcDie dc) (dcPhys s dc) % 4
/-- The clusters of a region. -/
def rgnDcs (s : State) (d r : Nat) : List Nat := (dieDcs d).filter fun dc => dcRgn s dc == r
/-- The physical core column of a core (R23, R34): the cluster's spare, column 32, stands in for the one that it replaces. -/
def lciPhysCol (s : State) (c : Nat) : Nat :=
  if smapGet 32 s.dev.coreMap (lciDc c) = lciCol c then 32 else lciCol c
/-- The key of a scratchpad word by the physical place of its core. -/
def spmWordKey (s : State) (c w : Nat) : Nat :=
  (((dcDie (lciDc c) * 200 + dcPhys s (lciDc c)) * 32 + lciRow c) * 33 + lciPhysCol s c) * 4096 + w
/-- Whether a core runs: its cluster is switched on (R177, R366). A core reset is one step (R414), and a cluster in reset is switched off. -/
def coreLive (s : State) (c : Nat) : Bool := (getClu s (lciDc c)).pwr.st == .on

/-- Whether the cluster's control port takes writes (R177): the cluster is switched on. -/
def cluWritable (s : State) (dc : Nat) : Bool := dcOk dc && (getClu s dc).pwr.st == .on

/-- Do `f` for each element in turn. -/
def forEach {α : Type} (xs : List α) (f : State → α → State) (s : State) : State := xs.foldl f s

/-! ### Locations of memory (R179, R184, R192) -/

/-- One MiB. -/
def mib : Nat := 2 ^ 20
/-- The first Tarn location; locations below it are DRAM. -/
def tarnBase : Nat := 2 ^ 41
/-- The location of byte `o` of a Tarn slice. -/
def tarnLoc (dc o : Nat) : Nat := tarnBase + (dcDie dc * 192 + dcClu dc) * (48 * mib) + o
/-- The location of byte `o` of a DRAM region. -/
def dramLoc (dc mdie o : Nat) : Nat := ((dcDie dc * 192 + dcClu dc) * 4 + mdie) * (192 * mib) + o
/-- Whether a location is in the Tarn. -/
def locIsTarn (l : Nat) : Bool := decide (tarnBase ≤ l)
/-- The column of a location. -/
def locDc (l : Nat) : Nat :=
  let k := if tarnBase ≤ l then (l - tarnBase) / (48 * mib) else l / (192 * mib) / 4
  k / 192 * 256 + k % 192
/-- The memory die of a DRAM location. -/
def locMDie (l : Nat) : Nat := l / (192 * mib) % 4
/-- The offset of a location within its slice or region. -/
def locOff (l : Nat) : Nat := if tarnBase ≤ l then (l - tarnBase) % (48 * mib) else l % (192 * mib)
/-- The bank of a DRAM location (R192). -/
def dramBank (l : Nat) : Nat := locOff l / 4096 % 16
/-- The bank of a Tarn location (R180). -/
def tarnBank (l : Nat) : Nat :=
  let o := locOff l
  (natBits o 13 7 ^^^ natBits o 20 14) ^^^ natBits o 25 21
/-- The row of a location within its bank, for repair (R274): its 4 KiB granule of DRAM, its word of Tarn. -/
def locRow (l : Nat) : Nat := if tarnBase ≤ l then natBits (locOff l) 25 14 else locOff l / 4096 / 16

/-- Bytes of the interleaved part of a stack (R192). -/
def interBytes (s : State) (k : Nat) : Nat := s.mdies * 192 * ((192 - 16 * (getStk s k).clsize) * mib)

/-- Where an address of a stack range lands (R192). -/
def dramDecode (s : State) (k x : Nat) : Option Nat :=
  let m := s.mdies
  let c := (getStk s k).clsize
  let i := interBytes s k
  if x < i then
    let p := x / 4096
    some (dramLoc (k * 256 + p / m % 192) (p % m) (p / (192 * m) * 4096 + x % 4096))
  else if x < m * 36864 * mib then
    let y := x - i
    let q := y / (c * 16 * mib)
    some (dramLoc (k * 256 + q / m) (q % m) ((192 - 16 * c) * mib + y % (c * 16 * mib)))
  else none

/-- What a device physical address names (R187). -/
inductive Place where
  | mem (loc : Nat)
  | spm (lci off : Nat)
  | clu (dc off : Nat)
  | die (d off : Nat)
  | unmapped
  deriving DecidableEq, Repr

/-- The start of each range of the map (R187). -/
def paTarn : Nat := 0x1000_0000_0000
def paSpm : Nat := 0x2000_0000_0000
def paClu : Nat := 0x3000_0000_0000
def paDie : Nat := 0x3000_0100_0000

/-- The device address map (R187). -/
def paDecode (s : State) (a : Nat) : Place :=
  if a < 0x0100_0000_0000 then
    let k := a / 0x24_0000_0000
    if k < 6 then
      match dramDecode s k (a % 0x24_0000_0000) with
      | some l => .mem l
      | none => .unmapped
    else .unmapped
  else if a < paTarn then .unmapped
  else if a < 0x1010_0000_0000 then
    let x := a - paTarn
    let d := x / 0x2_4000_0000
    if d < 6 then .mem (tarnLoc (d * 256 + x % 0x2_4000_0000 / 0x300_0000) (x % 0x300_0000)) else .unmapped
  else if a < paSpm then .unmapped
  else if a < 0x2010_0000_0000 then
    let x := a - paSpm
    if lciOk (x / 32768) then .spm (x / 32768) (x % 32768) else .unmapped
  else if a < paClu then .unmapped
  else if a < paDie then
    let x := a - paClu
    let dc := x / 0x10_0000 * 256 + x % 0x10_0000 / 0x1000
    if dcOk dc && decide (x % 0x10_0000 < 0xC0000) then .clu dc (x % 0x1000) else .unmapped
  else if a < 0x3000_0106_0000 then .die ((a - paDie) / 0x1_0000) ((a - paDie) % 0x1_0000)
  else .unmapped

/-- The device physical address of a location (the inverse of R192). -/
def locPa (s : State) (l : Nat) : Nat :=
  let dc := locDc l
  let o := locOff l
  if tarnBase ≤ l then paTarn + dcDie dc * 0x2_4000_0000 + dcClu dc * 0x300_0000 + o
  else
    let k := dcDie dc
    let m := s.mdies
    let c := (getStk s k).clsize
    let lim := (192 - 16 * c) * mib
    k * 0x24_0000_0000 +
      (if o < lim then ((o / 4096 * 192 + dcClu dc) * m + locMDie l) * 4096 + o % 4096
       else interBytes s k + (dcClu dc * m + locMDie l) * (c * 16 * mib) + (o - lim))

/-- The device physical address of a byte of a core's window (R187). -/
def spmPa (c off : Nat) : Nat := paSpm + c * 32768 + off

/-- Whether a location lies in the memory of a partition's stacks. -/
def locInPart (s : State) (q l : Nat) : Bool := dcPart s (locDc l) == some q
/-- Whether a DRAM location lies in the column-local part of its region (R192). -/
def locColumnLocal (s : State) (l : Nat) : Bool :=
  !locIsTarn l && decide ((192 - 16 * (getStk s (dcDie (locDc l))).clsize) * mib ≤ locOff l)

/-! ### The classes of the cap (R313, R375) -/

/-- The classes in priority order (R313): 0 links, 1 memory, 2 compute. -/
def classOrder (o : Nat) : List Nat := [natBits o 1 0, natBits o 3 2, natBits o 5 4]

/-- The settings of a class. -/
def getClass (p : Power) : Nat → PClass
  | 0 => p.links
  | 1 => p.memory
  | _ => p.compute

/-- The power state with a class changed. -/
def updClass (p : Power) (i : Nat) (f : PClass → PClass) : Power :=
  match i with
  | 0 => { p with links := f p.links }
  | 1 => { p with memory := f p.memory }
  | _ => { p with compute := f p.compute }

/-! ### Small shared steps -/

/-- The event that is worked out must wait (R81, R225). -/
def block (w : Wait) (s : State) : State := { s with blocked := if s.blocked.isNone then some w else s.blocked }

/-- A part of an event left out where it would have to wait, in an event that itself may not. -/
def unlessBlocked (t s : State) : State := if t.blocked.isSome && s.blocked.isNone then s else t

/-- Whether a spring step holds the bank of a location (R224). -/
def bankHeld (s : State) (loc : Nat) : Bool :=
  !locIsTarn loc && (getClu s (locDc loc)).spr.running.any fun t => t.mdie == locMDie loc && t.banks.contains (dramBank loc)

/-! The kinds of events that an estimate counts (R378). -/
def akToggle : Nat := 0
def akSpm : Nat := 1
def akTarn : Nat := 2
def akVertical : Nat := 3
def akFabric : Nat := 4
def akFlit : Nat := 5
/-- Words of a memory die, and steps of its spring units. -/
def akDram (mdie : Nat) : Nat := 8 + mdie % 4
def akSpring (mdie : Nat) : Nat := 12 + mdie % 4

/-- `n` events of a kind counted for a cluster's share of the estimates (R378), in the microsecond and in the millisecond (R387) in progress. -/
def countAct (dc kind n : Nat) (s : State) : State :=
  if n = 0 then s else
  { s with act := smapUpd 0 s.act (16 * dc + kind) (· + n), actMs := smapUpd 0 s.actMs (16 * dc + kind) (· + n) }


/-- The state with a counter of free values drawn, and its former value. -/
def drawFree (s : State) : Nat × State := (s.free, { s with free := s.free + 1 })
/-- 64-bit counters wrap (R467). -/
def inc64 (x : W64) (n : Nat) : W64 := x + BitVec.ofNat 64 n
/-- A 64-bit counter register is cleared by a write of zero; another value is stored (R16, R178). -/
def w64 (n : Nat) : W64 := BitVec.ofNat 64 n

/-- The variant's package power limit in units of 100 W (R7). -/
def variantLimit (s : State) : Nat := 240 - 10 * (4 - s.mdies) - 6 * (3 - s.ports / 2)

end Sys2Proof.Machine
end

