-- ==== Sys2Proof/Machine/Paths.lean ====
section
/-! DEFINITION. The fabric's endpoints, paths and hops (R152, R156 to R158), its arbitration (R161, R174), and the packets that their sender's own
command delivers (R277, R406). -/

namespace Sys2Proof.Machine

/-- The compute die of an endpoint; the I/O dies have none. -/
def epDie : Endpoint → Option Nat
  | .core c => some (dcDie (lciDc c))
  | .column dc => some (dcDie dc)
  | .ctrl dc => some (dcDie dc)
  | .leadIo => none
  | .link _ => none

/-- The cluster of an endpoint. -/
def epDc : Endpoint → Option Nat
  | .core c => some (lciDc c)
  | .column dc => some dc
  | .ctrl dc => some dc
  | _ => none

/-- A number for each endpoint, for the hash of R158. -/
def epNum : Endpoint → Nat
  | .core c => 8 * c
  | .column dc => 8 * dc + 1
  | .ctrl dc => 8 * dc + 2
  | .leadIo => 3
  | .link k => 8 * k + 4

/-- The plane of a packet (R158): VC2 by destination and tag, else by source and destination. -/
def planeOf (vc : Nat) (src dst : Endpoint) (tag : Nat) : Nat :=
  (if vc = 2 then Config.tagPlaneHash (epNum dst) tag else Config.planeHash (epNum src) (epNum dst)) % 16

/-- The switches of a path: up to the lowest level at which its ends meet, then down (R157, R158). -/
def pathOf (vc : Nat) (src dst : Endpoint) (tag : Nat) : List SwitchName :=
  let p := planeOf vc src dst tag
  match epDc src, epDc dst with
  | some a, some b =>
    if a = b then [.leaf a]
    else if dcDie a = dcDie b then [.leaf a, .dieSpine (dcDie a) p, .leaf b]
    else [.leaf a, .dieSpine (dcDie a) p, .pkgSpine p, .dieSpine (dcDie b) p, .leaf b]
  | some a, none => [.leaf a, .dieSpine (dcDie a) p, .pkgSpine p]
  | none, some b => [.pkgSpine p, .dieSpine (dcDie b) p, .leaf b]
  | none, none => [.pkgSpine p]

/-- The hop between two switches of a path. -/
def hopOf : SwitchName → SwitchName → Hop
  | .leaf dc, .dieSpine _ p => .leaf dc p
  | .dieSpine _ p, .leaf dc => .leaf dc p
  | .dieSpine d p, _ => .spine d p
  | _, .dieSpine d p => .spine d p
  | _, _ => .spine 0 0

/-- The hop between an endpoint and its switch, where it crosses a die boundary (R152): a column memory port lies above its leaf, and the I/O
ports lie on their own dies. -/
def edgeHop (plane : Nat) : Endpoint → List Hop
  | .core _ => []
  | .column dc => [.column dc]
  | .ctrl _ => []
  | .leadIo => [.io 0 plane]
  | .link k => [.io (k / 2 + 1) plane]

/-- The hops of a path that carry a CRC, in order (R152, R157): from a column memory port or an I/O die, from switch to switch, and to one. -/
def hopsOf (vc : Nat) (src dst : Endpoint) (tag : Nat) : List Hop :=
  let p := pathOf vc src dst tag
  let q := planeOf vc src dst tag
  edgeHop q src ++ ((p.zip (p.drop 1)).map fun x => hopOf x.1 x.2) ++ edgeHop q dst

/-! ### Where a packet stands -/

/-- Where a packet's way leads, its ends on other dies among them: none for such an end. -/
def nodesOf (vc : Nat) (src dst : Endpoint) (tag : Nat) : List (Option SwitchName) :=
  let ends := fun (e : Endpoint) => (edgeHop 0 e).map fun _ => (none : Option SwitchName)
  ends src ++ (pathOf vc src dst tag).map some ++ ends dst

/-- How many of these a packet has left behind. -/
def nodeNo (p : Pkt) : Nat := (nodesOf p.vc p.src p.dst p.tag).length - 1 - p.hops.length

/-- The switch at which a packet stands. -/
def switchAt (p : Pkt) : Option SwitchName := (nodesOf p.vc p.src p.dst p.tag).getD (nodeNo p) none

/-- An empty packet from one endpoint to another on a virtual channel. -/
def blankPkt (kind : PktKind) (src dst : Endpoint) (vc : Nat) (part : Option Nat) : Pkt :=
  { id := 0, kind := kind, src := src, dst := dst, vc := vc, part := part, addr := 0, data := [], len := 0, tag := 0, fmt := 0,
    scope := 0, req := 0, status := .commit, errAddr := 0, hops := [], retries := 0, taken := false, waitFill := false, stamp := 0, stale := false }

/-- Whether no earlier packet of the same source, destination and virtual channel is as far from its end (R174); one that the owner has admitted
holds a read back until it has committed. -/
def inOrder (s : State) (p : Pkt) : Bool :=
  let before := s.net.pkts.takeWhile fun q => q.id != p.id
  before.all fun q => (q.taken && p.kind != .readReq) ||
    !(q.src == p.src && q.dst == p.dst && q.vc == p.vc && decide (p.hops.length ≤ q.hops.length))

/-! ### Arbitration (R161) -/

/-- The switch output in whose queue a packet waits; none where it stands at an end of its way that lies on another die. -/
def outOf (p : Pkt) : Option Output :=
  let ns := nodesOf p.vc p.src p.dst p.tag
  match ns.getD (nodeNo p) none with
  | none => none
  | some a =>
    match ns[nodeNo p + 1]? with
    | some (some b) => some (.link a b)
    | some none => some (.port (match a with | .leaf _ => 0 | _ => planeOf p.vc p.src p.dst p.tag) p.dst)
    | none => some (.port 0 p.dst)

/-- The number of the input by which a packet entered its switch: of the switch it comes from, or of its source. -/
def inputOf (p : Pkt) : Nat :=
  match nodeNo p with
  | 0 => 8192 + epNum p.src
  | n + 1 =>
    match (nodesOf p.vc p.src p.dst p.tag).getD n none with
    | some (.leaf dc) => dc
    | some (.dieSpine d q) => 64 * d + q
    | some (.pkgSpine q) => 4096 + q
    | none => 8192 + epNum p.src

/-- The packets that wait in the queues of an output, each the next of its source for its destination (R158, R174). -/
def waitingAt (s : State) (o : Output) : List Pkt :=
  s.net.pkts.filter fun q => outOf q == some o && !q.taken && !q.waitFill && inOrder s q

/-- The turn of an output: VC1 goes first, from the lowest input, where it has served none. -/
def turnOf (s : State) (o : Output) : OutTurn := (s.net.turns.find? fun t => t.out == o).getD ⟨o, 2, []⟩

/-- The packet that an output serves next (R161): of VC0 before any other; VC1 and VC2 in turn where both wait; within one virtual channel the
inputs round-robin, and the oldest of its input. -/
def nextAt (t : OutTurn) (ws : List Pkt) : Option Pkt :=
  let vc := if ws.any (·.vc == 0) then 0 else if ws.any (·.vc == 1) && (t.lastVc != 1 || !ws.any (·.vc == 2)) then 1 else 2
  let rank := fun (p : Pkt) => ((inputOf p + 2 ^ 32 - 1 - smapGet (2 ^ 32 - 1) t.lastIn vc) % 2 ^ 32, p.stamp)
  (ws.filter (·.vc == vc)).foldl (fun best p =>
    match best with
    | none => some p
    | some q => if (rank p).1 < (rank q).1 ∨ ((rank p).1 = (rank q).1 ∧ (rank p).2 < (rank q).2) then some p else some q) none

/-- Whether it is a packet's turn at the output where it waits. -/
def served (s : State) (p : Pkt) : Bool :=
  match outOf p with
  | none => true
  | some o => (nextAt (turnOf s o) (waitingAt s o)).map (·.id) == some p.id

/-- An output has served a packet: its turn moves on (R161). -/
def passOut (p : Pkt) (s : State) : State :=
  match outOf p with
  | none => s
  | some o =>
    let t := turnOf s o
    updNet s fun n => { n with turns := (n.turns.filter fun x => x.out != o) ++
      [{ t with lastVc := if p.vc = 0 then t.lastVc else p.vc, lastIn := smapSet (2 ^ 32 - 1) t.lastIn p.vc (inputOf p) }] }

/-! ### Packets that their sender's own command delivers (R152, R277, R406) -/

/-- A CRC retry counted at each end of its hop that has a counter: at a leaf's uplink or a cluster's vertical channel (R178), and at the planes of the
spines (R473). -/
def countRetry (h : Hop) (s : State) : State :=
  let clu := fun (dc : Nat) (s : State) => updClu s dc fun k => { k with fabRetry := k.fabRetry + 1 }
  let plane := fun (i : Nat) (s : State) => updNet s fun t => { t with spineRetry := smapUpd 0 t.spineRetry i (· + 1) }
  match h with
  | .leaf dc p => plane (dcDie dc * 16 + p) (clu dc s)
  | .spine d p => plane (96 + p) (plane (d * 16 + p) s)
  | .column dc => clu dc s
  | .io _ p => plane (96 + p) s

/-- Whether the supply region of an endpoint's cluster has stopped, so that its die spine answers for it (R406). -/
def regionDead (s : State) (e : Endpoint) : Bool :=
  match epDc e with
  | some dc => (getRgn s (dcDie dc) (dcRgn s dc)).failed
  | none => false

/-- The virtual channel of each kind of packet (R160). -/
def kindVc : PktKind → Nat
  | .write | .readReq | .readResp | .broadcast => 1
  | .reduction => 2
  | .answer | .control => 0

/-- The number of a spine plane's counters (R178, R473): die × 16 + plane, with 6 for the package spine's die. -/
def spineNo : SwitchName → Option Nat
  | .leaf _ => none
  | .dieSpine d p => some (d * 16 + p)
  | .pkgSpine p => some (96 + p)

/-- Payload bytes counted at a spine plane (R473). -/
def countPlane (n i : Nat) (s : State) : State := updNet s fun t => { t with spineBytes := smapUpd 0 t.spineBytes i (fun v => inc64 v n) }

/-- The same at the plane, if it is one, that a packet has reached. -/
def countSpine (n : Nat) (sw : Option SwitchName) (s : State) : State :=
  match sw.bind spineNo with
  | some i => countPlane n i s
  | none => s

/-- A packet of a kind at each place of its way, from its source to its destination. -/
def stagesOf (kind : PktKind) (src dst : Endpoint) (s : State) : List Pkt :=
  let hs := hopsOf (kindVc kind) src dst 0
  (List.range (hs.length + 1)).map fun i =>
    { blankPkt kind src dst (kindVc kind) none with id := s.net.nextId, stamp := s.net.nextId, hops := hs.drop i }

/-- Whether an output would serve a packet that stands at it beside those that wait there already. -/
def goesNext (s : State) (p : Pkt) : Bool :=
  match outOf p with
  | none => true
  | some o => inOrder s p && (nextAt (turnOf s o) (waitingAt s o ++ [p])).map (·.id) == some p.id

/-- The spine planes that a packet reaches, up to the first hop with a hard fault. -/
def planesReached (kind : PktKind) (src dst : Endpoint) (s : State) : List Nat :=
  let hs := hopsOf (kindVc kind) src dst 0
  ((stagesOf kind src dst s).take (hs.findIdx s.net.hard.contains + 1)).filterMap fun p =>
    if p.hops.length < hs.length then (switchAt p).bind spineNo else none

/-- A packet of `n` bytes of payload moved over its whole way at once, past every output on it: where a hop has a hard fault it ends after its three
retries with BUS_ERROR (R152, R277), as it does at a die spine that answers for a stopped region (R406); else it arrives. The planes count a broadcast
where it is replicated, once for all its branches. -/
def crossWay (kind : PktKind) (src dst : Endpoint) (n : Nat) (s : State) : State × Bool :=
  let hs := hopsOf (kindVc kind) src dst 0
  let far := hs.findIdx s.net.hard.contains
  let s1 := forEach ((stagesOf kind src dst s).take (far + 1)) (fun s p => passOut p s)
    (forEach (if kind = .broadcast then [] else planesReached kind src dst s) (fun s i => countPlane n i s) s)
  match hs[far]? with
  | some h => (countRetry h (countRetry h (countRetry h s1)), false)
  | none => (s1, !regionDead s dst)

/-- A packet that crosses the fabric within its sender's own command. The command is due when every output on the way would serve it next (R161): until
then it waits, as a whole. -/
def crossNow (kind : PktKind) (src dst : Endpoint) (n : Nat) (s : State) : State × Bool :=
  let r := crossWay kind src dst n s
  if (stagesOf kind src dst s).all (goesNext s) then r else (block .turn r.1, r.2)

/-- A request for `n` bytes delivered within its sender's own command, and its answer of kind `back`: `deliver` has its effect where the request
arrives, and BUS_ERROR is the status where it, or the answer, is lost. -/
def overFabric (kind : PktKind) (src dst : Endpoint) (back : PktKind) (addr n : Nat) (deliver : State → State × FabStatus × Nat) (s : State) : State × FabStatus × Nat :=
  let x := crossNow kind src dst (if kind = .readReq then 0 else n) s
  if !x.2 then (x.1, .busError, addr) else
  let r := deliver x.1
  let y := crossNow back dst src (if back = .readResp then n else 0) r.1
  if y.2 then (y.1, r.2) else (y.1, .busError, addr)

end Sys2Proof.Machine
end

