-- ==== Sys2Proof/Machine/Flags.lean ====
section
/-! DEFINITION. Everything that reports: the event log and the events to the rings (R299, R300, R326, R470, R471), the core's
fault registers (R123, R124), the sequencer's (R125) and the flags (R117). -/

namespace Sys2Proof.Machine

/-! ### Events -/

/-- Whom an event concerns (R299). -/
inductive Scope where
  | device
  | part (q : Nat)
  | both (q : Nat)
  deriving DecidableEq, Repr

/-- The scope of an event of a partition, or of the device where no partition holds the stack. -/
def scopeOf : Option Nat → Scope
  | some q => .part q
  | none => .device

/-- The lead aperture of a partition: its lowest-numbered one (R285). -/
def leadAp (s : State) (q : Nat) : Option Nat := (s.aps.find? fun e => e.2.part == some q).map (·.1)

/-- The session in force on an aperture (R302). -/
def apSession (s : State) (a : Nat) : Option Session :=
  if a = 0 then s.dev.session
  else match (getAp s a).part with
    | some q => (getPart s q).session
    | none => none

/-- A RESULT of 32 bytes from its fields: (byte offset, bytes, value). -/
def mkResult (fs : List (Nat × Nat × Nat)) : List Byte :=
  (List.range 32).map fun i =>
    match fs.find? fun f => decide (f.1 ≤ i) && decide (i < f.1 + f.2.1) with
    | some f => BitVec.ofNat 8 (f.2.2 / 256 ^ (i - f.1) % 256)
    | none => 0

/-- How many entries the event log holds: 64 in the lead I/O die until VTARN rises at step 4 and in SAFE-TALK, where it is down (R410), else
4,096 (R470). -/
def logCap (s : State) : Nat :=
  if (s.dev.st = .boot ∧ s.dev.bootStep < 4) ∨ s.dev.st = .safeTalk then 64 else 4096

/-- An entry appended to the event-log ring, the oldest overwritten (R470); a severe one waits for the flash (R471). -/
def putLog (code sev part : Nat) (data : List Byte) (s : State) : State :=
  let e : LogEnt := { seq := s.dev.logSeq, time := s.dev.time, code := code, sev := sev, part := part, data := data }
  let l := s.dev.log ++ [e]
  let l' := l.drop (l.length - logCap s)
  if sev = 2 then
    if s.dev.persistQ.length < 64 then
      updDev s fun d => { d with log := l', logSeq := d.logSeq + 1, persistQ := d.persistQ ++ [e] }
    else updDev s fun d => { d with log := l', logSeq := d.logSeq + 1, persistLost := d.persistLost + 1 }
  else updDev s fun d => { d with log := l', logSeq := d.logSeq + 1 }

/-- An event queued for an aperture's ring while a session is in force there (R299); a full queue loses it (R300). -/
def queueEvent (a code : Nat) (result : List Byte) (s : State) : State :=
  match apSession s a with
  | none => s
  | some _ => updAp s a fun k =>
    if k.evq.length < 256 then { k with evq := k.evq ++ [⟨code, result⟩] }
    else { k with evLost := k.evLost + 1, evNew := k.evNew + 1 }

/-- An event queued for a partition's lead aperture. -/
def queueLead (q code : Nat) (result : List Byte) (s : State) : State :=
  match leadAp s q with
  | some a => queueEvent a code result s
  | none => s

/-- An event raised: to the log, then to the rings its scope names (R299, R326, R470). -/
def raiseEvent (code sev : Nat) (sc : Scope) (result : List Byte) (s : State) : State :=
  match sc with
  | .device => queueEvent 0 code result (putLog code sev 0xFF result s)
  | .part q => queueLead q code result (putLog code sev q result s)
  | .both q => queueEvent 0 code result (queueLead q code result (putLog code sev q result s))

/-- A trap or fault report, and the end of a stream: a control packet from an endpoint to Meridian on the lead I/O die (R160), which raises the event.
One that the fabric cannot deliver is lost (R152). DESIGN CHOICE: it takes no turn behind others on VC0, for what it reports does not wait for it. -/
def reportFrom (src : Endpoint) (code sev : Nat) (sc : Scope) (result : List Byte) (s : State) : State :=
  let x := crossWay .control src .leadIo 0 s
  if x.2 then raiseEvent code sev sc result x.1 else x.1

/-- A WARNING event (R326, R447): source, code, and bytes 4 to 6. -/
def warn (src code b4 b5 b6 : Nat) (s : State) : State :=
  raiseEvent 0x0109 1 .device (mkResult [(0, 1, src), (2, 2, code), (4, 1, b4), (5, 1, b5), (6, 1, b6)]) s

/-- A WARNING whose entry is severe (R471). -/
def warnSevere (src code b4 b5 b6 : Nat) (s : State) : State :=
  raiseEvent 0x0109 2 .device (mkResult [(0, 1, src), (2, 2, code), (4, 1, b4), (5, 1, b5), (6, 1, b6)]) s

/-! ### Fault codes (R123) -/

def fcIllegalOp : Nat := 0x01
def fcDescInvalid : Nat := 0x02
def fcAddress : Nat := 0x03
def fcFormat : Nat := 0x04
def fcExtent : Nat := 0x05
def fcNotLocal : Nat := 0x06
def fcSpmDown : Nat := 0x07
def fcBankConflict : Nat := 0x08
def fcSpmUnc : Nat := 0x09
def fcBusError : Nat := 0x0A
def fcWindowClosed : Nat := 0x0B
def fcNoWindow : Nat := 0x0C
def fcResetAbort : Nat := 0x0D
def fcPageFault : Nat := 0x0E
def fcPermission : Nat := 0x0F
def fcWflTimeout : Nat := 0x10
def fcScaleRange : Nat := 0x11
def fcFlagSat : Nat := 0x12
def fcSpringRefused : Nat := 0x13
def fcLoopDepth : Nat := 0x20
def fcLoopMismatch : Nat := 0x21
def fcProgramRange : Nat := 0x22

/-! ### Event faults (R123) -/

/-- The CORE_EVENT event for the first event fault of a code in a stream (R123). -/
def streamEvent (c code opcode : Nat) (s : State) : State :=
  let k := getCore s c
  let dc := lciDc c
  if k.bindEn && !(getSeq s dc k.bindSeq).evCodes.contains code then
    reportFrom (.core c) 0x010C 0 (scopeOf (lciPart s c))
      (mkResult [(0, 4, c), (4, 1, code), (5, 1, opcode), (6, 1, k.bindSeq), (8, 8, k.events.toNat)])
      (updSeq s dc k.bindSeq fun q => { q with evCodes := setIns q.evCodes code })
  else s

/-- An event fault at a core: `CORE_EVENTS`, `CORE_EVENT_LAST` and `CORE_STATUS.EVT`, then the stream's event (R123). -/
def coreEvent (c code opcode : Nat) (s : State) : State :=
  streamEvent c code opcode <| updCore s c fun k =>
    { k with events := k.events + 1, eventLast := BitVec.ofNat 16 (code + 256 * opcode), evt := true }

/-- An event fault raised `n` times, one count each (R132). -/
def coreEvents (n c code opcode : Nat) (s : State) : State :=
  if n = 0 then s else
  streamEvent c code opcode <| updCore s c fun k =>
    { k with events := inc64 k.events n, eventLast := BitVec.ofNat 16 (code + 256 * opcode), evt := true }

/-- Flag `f` of a core rises by 1 (R117): at 0xFFFF the increment is lost and FLAG_SATURATED is raised there with the
opcode of its source (R123). -/
def incFlag (c f srcOp : Nat) (s : State) : State :=
  let v := smapGet 0 (getCore s c).flags f
  if v = 0xFFFF#16 then coreEvent c fcFlagSat srcOp s
  else updCore s c fun k => { k with flags := smapSet 0 k.flags f (v + 1) }

/-! ### Sequencers (R96, R120, R125) -/

/-- `SEQ_STATE.STATE`'s encoding (R96). -/
def SeqSt.code : SeqSt → Nat
  | .idle => 0 | .running => 1 | .trapped => 2 | .ended => 3 | .faulted => 4

/-- `CORE_STATUS.STATE`'s encoding (R98). -/
def CoreSt.code : CoreSt → Nat
  | .idle => 0 | .running => 1 | .trapped => 2 | .faulted => 3

/-- How many bound cores are FAULTED. -/
def faultedCount (s : State) (dc n : Nat) : Nat :=
  ((boundCores s dc n).filter fun c => (getCore s c).st == .faulted).length

/-- `SEQ_STATE` as read (R96). DESIGN CHOICE: bits [31:16] count the bound cores that are FAULTED at the read, not those that were at the end
of the stream. -/
def seqStateWord (s : State) (dc n : Nat) : Nat :=
  let q := getSeq s dc n
  q.st.code + 256 * q.code + 65536 * (faultedCount s dc n % 65536)

/-- The STREAM_END event of a sequencer (R120, R318, R326). -/
def streamEnd (dc n : Nat) (aborted : Bool) (s : State) : State :=
  reportFrom (.ctrl dc) 0x0101 0 (scopeOf (dcPart s dc))
    (mkResult [(0, 2, dc), (2, 1, n), (3, 1, bit aborted), (4, 4, faultedCount s dc n)]) s

/-- The bound cores that take part in the stream that runs: those not IDLE. -/
def streamCores (s : State) (dc n : Nat) : List Nat :=
  (boundCores s dc n).filter fun c => (getCore s c).st != .idle

/-- Once END has been issued and every bound core has completed it or is FAULTED, the sequencer enters ENDED and the
completion record is posted (R120). -/
def checkSeqEnd (dc n : Nat) (s : State) : State :=
  let q := getSeq s dc n
  if q.st == .running && q.ended && (boundCores s dc n).all fun c =>
      (getCore s c).st == .idle || (getCore s c).st == .faulted then
    streamEnd dc n false (updSeq s dc n fun q => { q with st := .ended })
  else s

/-! ### Stopping faults (R124) -/

/-- `CORE_FAULT0` for a code, an opcode and the macro-op's address (R123). -/
def fault0Word (s : State) (c code opcode maddr : Nat) : W64 :=
  let k := getCore s c
  let start := (getSeq s (lciDc c) k.bindSeq).start
  w64 (code + 256 * opcode + 65536 * ((maddr - start) / 8 % 2 ^ 32))

/-- A core takes a stopping fault (R124): the record unless one is held, FAULTED, the queue and the macro-ops not yet
started in a unit discarded, and the event to the host. -/
def stopFault (c code opcode maddr addr : Nat) (s : State) : State :=
  let k := getCore s c
  let f0 := fault0Word s c code opcode maddr
  let s1 := updCore s c fun k =>
    let r := if k.flt then k else
      { k with flt := true, fault0 := f0, fault1 := w64 (addr % 2 ^ 48), fault2 := w64 s.dev.time }
    -- what waits for a discarded macro-op is never sent (R176)
    let gone := (r.ops.filter fun p => !p.started).map (·.id)
    { r with
      st := .faulted, queue := [], hold := none
      ops := r.ops.filter (·.started)
      sigs := r.sigs.filter fun g => !(g.afterOps.any gone.contains) }
  if k.st = .faulted then s1 else
    let k1 := getCore s1 c
    (fun s => if k.bindEn then checkSeqEnd (lciDc c) k.bindSeq s else s) <| reportFrom (.core c) 0x0103 0 (scopeOf (lciPart s c))
      (mkResult [(0, 4, c), (8, 8, k1.fault0.toNat), (16, 8, k1.fault1.toNat), (24, 8, k1.fault2.toNat)]) s1

/-! ### Stopping a sequencer (R125, R318) -/

/-- A core whose sequencer was stopped returns to IDLE once it has completed what it has dispatched (R125, R318). -/
def settleCore (c : Nat) (s : State) : State :=
  let k := getCore s c
  if k.bindEn && (getSeq s (lciDc c) k.bindSeq).draining && (k.st == .running || k.st == .trapped) && k.hold.isNone
      && k.ops.isEmpty && k.queue.isEmpty then
    updCore s c fun k => { k with st := .idle, loops := [], adv := [] }
  else s

/-- The bound cores of a stopped sequencer discard their queues; a TRP or END they wait at falls away, and an abort
also discards a BAR or WFL (R125, R318). -/
def drainCores (dc n : Nat) (abort : Bool) (s : State) : State :=
  forEach (boundCores s dc n) (fun s c =>
    settleCore c <| updCore s c fun k =>
      let h := match k.hold with
        | some (.trp ..) => none
        | some .endOp => none
        | some (.bar a b i) => if abort then none else some (.bar a b i)
        | some (.arrived b) => if abort then none else some (.arrived b)
        | some (.wfl a b t d) => if abort then none else some (.wfl a b t d)
        | h => h
      { k with queue := [], hold := h }) s

/-- A sequencer fault (R125): the code recorded, FAULTED, the bound cores drained, and the event to the host. -/
def seqFault (dc n code : Nat) (s : State) : State :=
  let s1 := updSeq s dc n fun q => { q with st := .faulted, code := code, draining := true, buf := none }
  let s2 := reportFrom (.ctrl dc) 0x0104 0 (scopeOf (dcPart s dc))
    (mkResult [(0, 2, dc), (2, 1, n), (8, 8, seqStateWord s1 dc n), (16, 8, (getSeq s1 dc n).pc)]) s1
  drainCores dc n false s2

/-- A stream aborted (R318, R419): the sequencer stops issue at once and enters ENDED; the event reports the abort. -/
def seqAbort (dc n : Nat) (s : State) : State :=
  let q := getSeq s dc n
  if q.st = .running ∨ q.st = .trapped then
    streamEnd dc n true <| drainCores dc n true <|
      updSeq s dc n fun q => { q with st := .ended, draining := true, buf := none, aborted := true, waitPwr := false }
  else s

end Sys2Proof.Machine
end

