-- ==== Sys2Proof/Machine/HostRec.lean ====
section
/-! DEFINITION. Apertures: landing and taking packets (R284 to R291), the checks of a packet (R285, R292, R303, R304, R306), reply records and
event records (R293 to R300), and interrupts (R283). -/

namespace Sys2Proof.Machine

/-! ### Small parts -/

/-- `HIF_STATE.DSTATE`'s encoding (R310). -/
def DevSt.code : DevSt → Nat
  | .boot => 0 | .selftest => 1 | .safeTalk => 2 | .config => 3 | .ready => 4 | .running => 5 | .draining => 6 | .salvage => 7

/-- `HIF_STATE.P`q's encoding (R311). -/
def PartSt.code : PartSt → Nat
  | .none => 0 | .config => 1 | .ready => 2 | .running => 3 | .draining => 4 | .salvage => 5

/-- Whether the PCIe function answers BAR accesses: VAUX and power-good are there, no package reset is held, and it is in D0 (R279, R404). -/
def barUp (s : State) : Bool := s.side.vaux && !s.dev.held && !s.pcie.d3hot

/-- Whether packets are taken: from SAFE-TALK on (R310); in D3hot too, those that have landed (R279). -/
def hostActs (s : State) : Bool := s.side.vaux && !s.dev.held && s.dev.st != .boot && s.dev.st != .selftest

/-- Whether packets land: in D3hot every write is dropped (R279). -/
def hostUp (s : State) : Bool := hostActs s && !s.pcie.d3hot

/-- The partition an aperture serves; none for aperture 0 (R285). -/
def apPart (s : State) (a : Nat) : Option Nat := if a = 0 then none else (getAp s a).part

/-- Whether an aperture is its partition's lead aperture (R285). -/
def isLead (s : State) (a : Nat) : Bool :=
  match apPart s a with
  | some q => leadAp s q == some a
  | none => false

/-- The apertures of a partition. -/
def partAps (s : State) (q : Nat) : List Nat := (s.aps.filter fun e => e.1 != 0 && e.2.part == some q).map (·.1)

/-! ### Sequence numbers and slots (R284, R289, R290) -/

/-- The sequence number of the oldest taken command without a written reply. -/
def oldestSeq (k : Aperture) : Option Nat :=
  match k.recs with
  | r :: _ => some r.seq
  | [] =>
    match k.cur with
    | some c => some c.seq
    | none => k.taken.head?.map (·.slot)

/-- `AP_SEQ.LIMIT` (R289). -/
def apLimit (k : Aperture) : Nat := ((oldestSeq k).getD k.next + 63) % 2 ^ 32

/-- How many sequence numbers from `NEXT` on the window holds (R289). -/
def apWindow (k : Aperture) : Nat := 64 - sub32 k.next ((oldestSeq k).getD k.next)

/-- A landed unit of a slot; empty when it has not landed. -/
def getUnit (k : Aperture) (slot u : Nat) : List Byte := smapGet [] k.units (slot * 256 + u)

/-- A 16-byte unit written into an aperture (R286, R289): it lands in the window, else it is dropped and counted. -/
def landUnit (a x : Nat) (bs : List Byte) (s : State) : State :=
  let k := getAp s a
  let slot := x / 4096
  if (slot + 4096 - k.next % 4096) % 4096 < apWindow k then
    updAp s a fun k => { k with units := smapSet [] k.units (slot * 256 + x % 4096 / 16) bs }
  else updAp s a fun k => { k with drops := k.drops + 1 }

/-- A PCIe write into BAR2 (R286, R310): whole aligned units land, anything else is dropped and counted. -/
def apertureWrite (off : Nat) (bs : List Byte) (s : State) : State :=
  if !hostUp s || decide (2 ^ 28 < off + bs.length) then s
  else if off % 16 ≠ 0 ∨ bs.length % 16 ≠ 0 ∨ bs.isEmpty then { s with pcie := { s.pcie with drops := s.pcie.drops + 1 } }
  else forEach (List.range (bs.length / 16)) (fun s i =>
    let o := off + 16 * i
    landUnit (o / 0x100_0000) (o % 0x100_0000) (bytesAt bs (16 * i) 16) s) s

/-- APERTURE_WRITE (R286). -/
def execApertureWrite (off : Nat) (bytes : List Byte) (s : State) : Host.Outcome State Fault Refusal := live s (apertureWrite off bytes s)

/-- The slot of packet `NEXT`. -/
def nextSlot (k : Aperture) : Nat := k.next % 4096

/-- LEN of the packet whose header has landed (R287, R292). -/
def landedLen (k : Aperture) : Option Nat :=
  match getUnit k (nextSlot k) 0 with
  | [] => none
  | h => some (fieldAt h 4 2)

/-- Whether a LEN lies within 2 to 256. -/
def lenOk (n : Nat) : Bool := decide (2 ≤ n) && decide (n ≤ 256)

/-- Whether packet `NEXT` can be taken (R287). -/
def packetLanded (k : Aperture) : Bool :=
  match landedLen k with
  | none => false
  | some n => !lenOk n || (List.range n).all fun u => !(getUnit k (nextSlot k) u).isEmpty

/-! ### Sessions and their keys (R302, R303, R433) -/

/-- The key of an aperture and direction: 0 from the host, 1 to the host. -/
def sessKey (ss : Session) (a d : Nat) : List Byte :=
  hkdfExpand ss.prk (ascii "KNSESS1" ++ [BitVec.ofNat 8 a, BitVec.ofNat 8 d]) 32

/-- A GCM nonce (R303). -/
def gcmNonce (count chunk a kind : Nat) : Nat := count % 2 ^ 64 + 2 ^ 64 * (chunk % 2 ^ 24) + 2 ^ 88 * a + 2 ^ 92 * kind

/-! ### Replies -/

/-- Reply statuses (R307). -/
def stOk : Nat := 0
def stState : Nat := 1
def stInvalid : Nat := 2
def stAuth : Nat := 3
def stSession : Nat := 4
def stRefused : Nat := 5
def stError : Nat := 6
def stAborted : Nat := 7

/-- A reply record created (R294): an AUTH answer is counted in `AP_AUTHFAIL`. -/
def pushReply (a st code seq tag : Nat) (result : List Byte) (s : State) : State :=
  updAp s a fun k => { k with
    recs := k.recs ++ [⟨st, code, seq, tag, result⟩]
    authFail := if st = stAuth then k.authFail + 1 else k.authFail }

/-- The command in progress on an aperture ends with a reply. -/
def finish (a st : Nat) (result : List Byte) (s : State) : State :=
  match (getAp s a).cur with
  | none => s
  | some c => updAp (pushReply a st c.opcode c.seq c.tag result s) a fun k => { k with cur := none }

/-- RESULT of INVALID (R307). -/
def invalidResult (off reason : Nat) : List Byte := mkResult [(0, 2, off), (2, 1, reason)]

/-- RESULT of STATE (R307) for a command on an aperture about partition `q`. -/
def stateResult (s : State) (q : Option Nat) (obstacle : Nat) : List Byte :=
  mkResult [(0, 2, s.dev.st.code), (2, 2, match q with | some q => (getPart s q).st.code | none => 0xFFFF), (4, 2, obstacle)]

/-- RESULT of ERROR and ABORTED (R307). -/
def errorResult (code addr done : Nat) : List Byte := mkResult [(0, 1, code), (8, 8, addr), (16, 8, done)]

/-! ### The checks of a packet (R285, R306) -/

/-- On which apertures a command is allowed (R312). -/
inductive Where where
  | any | dev | devLead | lead | part
  deriving DecidableEq, Repr

/-- The commands of R312: where each is allowed, and its parameters as (offset, bytes). -/
def cmdSpec (op : Nat) : Option (Where × List (Nat × Nat)) :=
  match op with
  | 0x0001 => some (.any, [(0, 8), (8, 8)])
  | 0x0002 => some (.any, [])
  | 0x0003 => some (.devLead, [(0, 32), (32, 8), (40, 8)])
  | 0x0004 => some (.devLead, [(0, 96), (96, 8), (104, 8)])
  | 0x0010 => some (.devLead, [])
  | 0x0011 => some (.dev, [(0, 4), (4, 4), (8, 8), (16, 8)])
  | 0x0012 => some (.dev, [(0, 1)])
  | 0x0013 => some (.devLead, [(0, 8), (8, 8), (16, 8)])
  | 0x0020 => some (.dev, [(0, 4), (4, 4), (8, 8), (16, 8)])
  | 0x0021 => some (.dev, [(0, 1)])
  | 0x0022 => some (.dev, [(0, 1), (8, 96), (104, 96)])
  | 0x0030 => some (.dev, [(0, 2), (2, 1), (4, 14)])
  | 0x0031 => some (.dev, [(0, 2), (2, 2), (4, 2)])
  | 0x0032 => some (.dev, [(0, 1)])
  | 0x0040 => some (.dev, [(0, 1), (2, 2), (4, 1)])
  | 0x0041 => some (.dev, [(0, 1)])
  | 0x0042 => some (.lead, [(0, 1), (1, 1), (8, 8), (16, 8), (24, 8)])
  | 0x0043 => some (.lead, [])
  | 0x0044 => some (.part, [])
  | 0x0045 => some (.part, [(0, 4)])
  | 0x0046 => some (.lead, [])
  | 0x0047 => some (.part, [(0, 1), (4, 4)])
  | 0x0050 => some (.part, [(0, 8), (8, 8), (16, 8), (24, 8)])
  | 0x0051 => some (.part, [(0, 8), (8, 8), (16, 8), (24, 8)])
  | 0x0052 => some (.part, [(0, 4), (4, 1), (5, 1), (8, 8), (16, 8), (24, 8)])
  | 0x0053 => some (.part, [(0, 8), (8, 8), (16, 8), (24, 8)])
  | 0x0054 => some (.part, [(0, 8)])
  | 0x0055 => some (.part, [(0, 8), (8, 1)])
  | 0x0056 => some (.part, [(0, 8), (8, 8)])
  | 0x0060 => some (.part, [(0, 2), (2, 1), (3, 1), (8, 8), (16, 8), (24, 4), (28, 4)])
  | 0x0061 => some (.part, [(0, 2), (2, 1), (3, 1)])
  | 0x0062 => some (.part, [(0, 2), (3, 1), (8, 8)])
  | _ => none

/-- Whether a command is allowed on an aperture. -/
def allowedOn (s : State) (a : Nat) : Where → Bool
  | .any => true
  | .dev => a == 0
  | .devLead => a == 0 || isLead s a
  | .lead => isLead s a
  | .part => (apPart s a).isSome

/-- The bytes that a command's parameters need. -/
def paramNeed (fs : List (Nat × Nat)) : Nat := fs.foldl (fun m f => max m (f.1 + f.2)) 0

/-- The first reserved byte of a parameter area that is not zero. -/
def paramStray (fs : List (Nat × Nat)) (ps : List Byte) : Option Nat :=
  (List.range ps.length).find? fun i =>
    ps.getD i 0 != 0 && !(fs.any fun f => decide (f.1 ≤ i) && decide (i < f.1 + f.2))

/-- The first offending field of a packet's header under check 3 (R306, R307): (offset, reason). SEQ goes first, as R288 states. -/
def check3 (s : State) (a : Nat) (bs : List Byte) (slot : Nat) (ps : List Byte) : Option (Nat × Nat) :=
  let want := match apPart s a with | some q => q | none => 0xFF
  if fieldAt bs 8 4 ≠ slot then some (8, 1) else
  match cmdSpec (fieldAt bs 0 2) with
  | none => some (0, 3)
  | some (w, fs) =>
    if !allowedOn s a w then some (0, 4)
    else if fieldAt bs 2 2 / 2 ≠ 0 then some (2, 2)
    else if ps.length < paramNeed fs then some (4, 1)
    else if fieldAt bs 6 1 ≠ want then some (6, 4)
    else if fieldAt bs 7 1 ≠ 0 then some (7, 2)
    else if (List.range 16).any fun i => bs.getD (16 + i) 0 != 0 then some (16, 2)
    else none

/-- Whether an aperture is one from 1 to 15 that belongs to no partition (R285). -/
def unassigned (s : State) (a : Nat) : Bool := a != 0 && (apPart s a).isNone

/-- A command accepted by checks 1 to 3, but for its parameters; those of an unassigned aperture's are not examined (R285). -/
def acceptCmd (a slot : Nat) (bs ps : List Byte) (count : Nat) (s : State) : State :=
  updAp s a fun k => { k with
    cur := some { opcode := fieldAt bs 0 2, seq := slot, tag := fieldAt bs 12 4, enc := natBit (fieldAt bs 2 2) 0, params := ps
                  count := count, started := false, moved := 0, aux := 0, buf := []
                  stray := if unassigned s a then none else (cmdSpec (fieldAt bs 0 2)).bind fun x => (paramStray x.2 ps).map (32 + ·) } }

/-- Check 2 under a session (R303, R304): the parameter area in the clear, if ENC is 1 and the tag passes. -/
def openPacket (ss : Session) (a count : Nat) (bs : List Byte) (len : Nat) : Option (List Byte) :=
  if !natBit (fieldAt bs 2 2) 0 then none else
  let n := 16 * len - 48
  gcmOpen (sessKey ss a 0) (gcmNonce count 0 a 0) (bytesAt bs 0 32) (bytesAt bs 32 n) (bytesAt bs (32 + n) 16)

/-- A packet answered AUTH (R304). -/
def answerAuth (a slot : Nat) (bs : List Byte) (s : State) : State :=
  let n := min 8 ((getAp s a).authRun + 1)
  pushReply a stAuth (fieldAt bs 0 2) slot (fieldAt bs 12 4) (mkResult [(0, 4, n)]) (updAp s a fun k => { k with authRun := n })

/-- A taken packet examined under checks 1 to 3 of R306, or under R285 on an aperture of no partition. -/
def examine (a : Nat) (p : RawPkt) (s0 : State) : State :=
  let bs := p.bytes
  let op := fieldAt bs 0 2
  let len := fieldAt bs 4 2
  let enc := natBit (fieldAt bs 2 2) 0
  let sess := apSession s0 a
  let count := (getAp s0 a).pktCount
  let s := if sess.isSome then updAp s0 a fun k => { k with pktCount := k.pktCount + 1 } else s0
  let rep := fun (st : Nat) (r : List Byte) => pushReply a st op p.slot (fieldAt bs 12 4) r s
  if !lenOk len || (enc && len < 3) then rep stInvalid (invalidResult 4 1)
  else if unassigned s a then
    if fieldAt bs 8 4 ≠ p.slot then rep stInvalid (invalidResult 8 1)
    else if op = 1 ∨ op = 2 then acceptCmd a p.slot bs (bytesAt bs 32 (16 * len - 32)) 0 s
    else rep stState (stateResult s none 0)
  else
    match sess with
    | none =>
      if enc || op == 0 || decide (4 < op) then rep stSession (mkResult [])
      else
        let ps := bytesAt bs 32 (16 * len - 32)
        match check3 s a bs p.slot ps with
        | some e => rep stInvalid (invalidResult e.1 e.2)
        | none => acceptCmd a p.slot bs ps 0 s
    | some ss =>
      match openPacket ss a count bs len with
      | none => answerAuth a p.slot bs s
      | some ps =>
        let s := updAp s a fun k => { k with authRun := 0 }
        match check3 s a bs p.slot ps with
        | some e => pushReply a stInvalid op p.slot (fieldAt bs 12 4) (invalidResult e.1 e.2) s
        | none => acceptCmd a p.slot bs ps count s

/-- The next taken packet examined once the previous command of the aperture has written its reply (R291). -/
def advanceAp (a : Nat) (s : State) : State :=
  let k := getAp s a
  if k.cur.isSome || !k.recs.isEmpty then s else
  match k.taken with
  | [] => s
  | p :: ps => examine a p (updAp s a fun k => { k with taken := ps })

/-- Whether the reset of an aperture's partition keeps it from taking packets (R416). -/
def apHeld (s : State) (a : Nat) : Bool :=
  match apPart s a with
  | some q => (getPart s q).resetting.isSome
  | none => false

/-- PACKET_TAKE (R287, R288). -/
def packetTake (a : Nat) (s : State) : State :=
  let k := getAp s a
  if decide (16 ≤ a) || !hostActs s || !k.en || apHeld s a || !packetLanded k then s else
  let slot := nextSlot k
  let n := (landedLen k).getD 0
  let bs := (List.range (if lenOk n then n else 1)).flatMap fun u => getUnit k slot u
  advanceAp a <| updAp s a fun k => { k with
    units := smapKeep (fun u => u / 256 != slot) k.units
    next := (k.next + 1) % 2 ^ 32
    taken := k.taken ++ [⟨bs, k.next⟩] }

/-- PACKET_TAKE (R287). -/
def execPacketTake (ap : Nat) (s : State) : Host.Outcome State Fault Refusal := live s (packetTake ap s)

/-! ### Records (R293 to R296, R303) -/

/-- Posted writes to host memory, none larger than the programmed maximum payload (R278, R280). -/
def postWrite (addr : Nat) (bs : List Byte) (s : State) : State :=
  { s with pcie := { s.pcie with
    posted := s.pcie.posted ++ (cutEvery s.pcie.maxPayload addr bs.length).map fun x => (x.1, bytesAt bs (x.1 - addr) x.2) } }

/-- Read requests to host memory, none larger than the programmed maximum (R278). -/
def readHost (addr n : Nat) (s : State) : State :=
  { s with pcie := { s.pcie with reads := s.pcie.reads ++ cutEvery s.pcie.maxReadReq addr n } }

/-- The bit of a completion timeout in AER's uncorrectable error status. PRESUMED: the place that the PCIe base specification gives it. -/
def aerTimeout : Nat := 14

/-- What the host has answered to the device's reads (R278): where bytes of it are missing, their completion has timed out, and AER records it. -/
def hostAnswered (n : Nat) (data tag : List Byte) (s : State) : State :=
  if data.length < n ∨ tag.length < 16 then { s with pcie := { s.pcie with aer := s.pcie.aer ||| 2 ^ aerTimeout } } else s

/-- AER's uncorrectable error status as the host reads it by a configuration request (R278), which is answered in D3hot too (R279). -/
def aerRead (s : State) : Option Nat := if s.side.vaux && !s.dev.held then some s.pcie.aer else none

/-- Whether the ring of an aperture has space for a record (R295). -/
def ringSpace (k : Aperture) : Bool := k.en && decide (sub32 k.tail k.head < 2 ^ k.log2n)

/-- A record written to the ring in two posted writes (R293, R295, R296): `kind` 0 for a reply, 1 for an event; `clear` for one written
before the session takes effect. -/
def writeRecord (a kind st code seq tag : Nat) (result : List Byte) (clear : Bool) (s : State) : State :=
  let k := getAp s a
  let n := 2 ^ k.log2n
  let phase := 1 - k.tail / n % 2
  let hdr := leBytes 1 (phase + 2 * kind) ++ leBytes 1 st ++ leBytes 2 code ++ leBytes 4 seq ++ leBytes 4 tag ++ leBytes 4 (apLimit k)
  let sess := if clear then none else apSession s a
  let body := match sess with
    | none => bytesAt result 0 32 ++ List.replicate 16 0
    | some ss =>
      let c := gcmSeal (sessKey ss a 1) (gcmNonce k.recCount 0 a 1) hdr (bytesAt result 0 32)
      c.1 ++ c.2
  let rec64 := hdr ++ body
  let addr := k.ringBase + k.tail % n * 64
  let s1 := updAp s a fun k => { k with
    tail := (k.tail + 1) % 2 ^ 32
    recCount := if sess.isSome then k.recCount + 1 else k.recCount
    unsignalled := if k.mask then k.unsignalled else k.unsignalled + 1 }
  postWrite addr (rec64.take 4) (postWrite (addr + 4) (rec64.drop 4) s1)

/-- The oldest reply of an aperture written (R295): the state, and the reply. -/
def writeReply (a : Nat) (s : State) : Option (State × Rec) :=
  let k := getAp s a
  match k.recs with
  | [] => none
  | r :: rs =>
    if ringSpace k && barUp s then
      let s1 := updAp s a fun k => { k with recs := rs, recClear := false }
      some (writeRecord a 0 r.status r.code r.seq r.tag r.result k.recClear s1, r)
    else none

/-- EVENTS_LOST (R300, R326), an event as any other: to the log first (R470), then to the ring. -/
def lostWrite (a : Nat) (s : State) : State :=
  let k := getAp s a
  let r := mkResult [(0, 4, k.evNew)]
  writeRecord a 1 0 0x010A k.evSeq 0 r false <|
    putLog 0x010A 0 ((apPart s a).getD 0xFF) r (updAp s a fun k => { k with evNew := 0, evSeq := (k.evSeq + 1) % 2 ^ 32 })

/-- EVENT_RECORD_WRITE (R299, R300): one EVENTS_LOST for what has been lost, else the oldest queued event; a reply that waits goes first, and its record
precedes this one (R294). DESIGN CHOICE: the record of a queued event is created as it leaves the queue. -/
def eventWrite (a : Nat) (s : State) : State :=
  let k := getAp s a
  if !ringSpace k || !k.recs.isEmpty || !barUp s || (apSession s a).isNone || k.recClear then s
  else if 0 < k.evNew then lostWrite a s
  else
    match k.evq with
    | [] => s
    | e :: es =>
      writeRecord a 1 0 e.code k.evSeq 0 e.result false (updAp s a fun k => { k with evq := es, evSeq := (k.evSeq + 1) % 2 ^ 32 })

/-- EVENT_RECORD_WRITE (R300). -/
def execEventRecordWrite (ap : Nat) (s : State) : Host.Outcome State Fault Refusal := live s (eventWrite ap s)

/-! ### Interrupts (R278, R283) -/

/-- An MSI-X table word as it is until written: vectors are masked. -/
def msixDefault (i : Nat) : W32 := if i % 4 = 3 then 1 else 0

/-- The MSI-X table word with a number. -/
def msixWord (s : State) (i : Nat) : W32 := smapGet (msixDefault i) s.pcie.msixTable i

/-- The vector of an aperture (R282). -/
def apVec (k : Aperture) (a : Nat) : Nat := k.vec.getD a % 32

/-- A vector signalled, or left pending while its table entry masks it. -/
def signalVec (v : Nat) (s : State) : State :=
  if natBit (msixWord s (4 * v + 3)).toNat 0 then { s with pcie := { s.pcie with msixPend := setIns s.pcie.msixPend v } }
  else { s with pcie := { s.pcie with signals := s.pcie.signals ++ [v] } }

/-- MSIX_INTERRUPT (R283): due once `MODN` records stand unsignalled, or one of them is `MODT` µs old (`aged`); a masked aperture loses the interrupt. -/
def msixSignal (a : Nat) (aged : Bool) (s : State) : State :=
  let k := getAp s a
  if k.unsignalled = 0 || !(aged || decide (k.modn ≤ k.unsignalled)) || !barUp s then s else
  let s1 := updAp s a fun k => { k with unsignalled := 0 }
  if k.mask then s1 else signalVec (apVec k a) s1

/-- MSIX_INTERRUPT (R283). -/
def execMsixInterrupt (x : IntrDue) (s : State) : Host.Outcome State Fault Refusal := live s (msixSignal x.ap x.aged s)

/-! ### Running a command (R306) -/

/-- The commands that send data to the host. -/
def postsHost (op : Nat) : Bool := [0x01, 0x03, 0x04, 0x11, 0x13].contains op

/-- Whether the command of an aperture waits to be performed: it has not started, no reset of its partition holds it back (R416), and the host takes
what it sends (R279). -/
def waitsTurn (s : State) (a : Nat) : Bool :=
  match (getAp s a).cur with
  | some c => !c.started && !apHeld s a && (!s.pcie.d3hot || !postsHost c.opcode)
  | none => false

/-- The first of the apertures after one, in turn, that satisfies a condition. -/
def nextInTurn (last : Nat) (p : Nat → Bool) : Option Nat := ((List.range 16).map fun i => (last + 1 + i) % 16).find? p

/-- Whether it is an aperture's turn: Meridian takes commands round-robin across apertures (R291). -/
def myTurn (s : State) (a : Nat) : Bool := nextInTurn s.pcie.turn (waitsTurn s) == some a

/-- Meridian has taken the command of an aperture. -/
def takeTurn (a : Nat) (s : State) : State := { s with pcie := { s.pcie with turn := a } }

/-- Of two offending fields the one of the lower offset (R307). -/
def lowerRef : Option (Nat × Nat) → Option (Nat × Nat) → Option (Nat × Nat)
  | some x, some y => if y.1 < x.1 then some y else some x
  | some x, none => some x
  | none, y => y

/-- No references. -/
def noRefs (_ : Cmd) (_ : State) : Option (Nat × Nat) := none

/-- The failing reference of the lowest offset among some: (offset, whether it fails, reason). -/
def firstRef (xs : List (Nat × Bool × Nat)) : Option (Nat × Nat) :=
  xs.foldl (fun acc x => if x.2.1 then lowerRef acc (some (x.1, x.2.2)) else acc) none

/-- Check 3 of a command's parameters (R306, R307), then check 4, and then its body, once, in its turn. `refs` gives the first offending reference as
(packet offset, reason). -/
def cmdRun (a op : Nat) (refs : Cmd → State → Option (Nat × Nat)) (legal : State → Bool) (body : Cmd → State → State) (s : State) : State :=
  match (getAp s a).cur with
  | none => s
  | some c =>
    if c.opcode ≠ op || !myTurn s a then s else
    match lowerRef (refs c s) (c.stray.map fun i => (i, 2)) with
    | some e => finish a stInvalid (invalidResult e.1 e.2) (takeTurn a s)
    | none => if legal s then body c (takeTurn a s) else finish a stState (stateResult s (apPart s a) 0) (takeTurn a s)

/-- A parameter field: `n` bytes from `off` of the parameter area. -/
def Cmd.p (c : Cmd) (off n : Nat) : Nat := fieldAt c.params off n

/-- Whether the device state is one of those given. -/
def devIn (sts : List DevSt) (s : State) : Bool := sts.contains s.dev.st

/-- Whether the state of an aperture's partition is one of those given. -/
def partIn (a : Nat) (sts : List PartSt) (s : State) : Bool :=
  match apPart s a with
  | some q => sts.contains (getPart s q).st
  | none => false

/-- The command in progress on an aperture changed. -/
def updCur (a : Nat) (f : Cmd → Cmd) (s : State) : State := updAp s a fun k => { k with cur := k.cur.map f }

/-- A command marked as started, with the number it keeps. -/
def startCmd (a aux : Nat) (s : State) : State := updCur a (fun c => { c with started := true, aux := aux }) s

/-- The apertures whose started command satisfies a condition. -/
def apsWaiting (s : State) (p : Nat → Cmd → Bool) : List Nat :=
  (s.aps.filter fun e => match e.2.cur with | some c => c.started && p e.1 c | none => false).map (·.1)

end Sys2Proof.Machine
end

