-- ==== Sys2Proof/Machine/Num.lean ====
section
/-! DEFINITION. Number formats and exact arithmetic with one rounding to nearest, ties to even
(R50 to R54, R67, R68, R82, R113, R171). -/

namespace Sys2Proof.Machine

/-- A decoded value: a finite one is (−1)^neg × m × 2^e. -/
inductive FVal where
  | nan
  | inf (neg : Bool)
  | fin (neg : Bool) (m : Nat) (e : Int)
  deriving DecidableEq, Repr

/-- The quiet NaN the device produces (R68, R171). -/
def qnan : W32 := 0x7FC00000#32

/-- `m` shifted right by `s` bits, rounded to nearest, ties to even (R67). -/
def rneShift (m s : Nat) : Nat :=
  let d := m / 2 ^ s
  let r := m % 2 ^ s
  if 2 * r > 2 ^ s || (2 * r == 2 ^ s && d % 2 == 1) then d + 1 else d

/-- The exponent of the last place kept for `m` × 2^e with `mbits` fraction bits and least exponent `emin`. -/
def lastPlace (mbits : Nat) (emin : Int) (m : Nat) (e : Int) : Int :=
  max (e + (Nat.log2 m : Int) - mbits) (emin - mbits)

/-- `m` × 2^e rounded to `mbits` fraction bits without an upper limit: (r, q) stands for r × 2^q (R82). -/
def roundOpen (mbits : Nat) (emin : Int) (m : Nat) (e : Int) : Nat × Int :=
  if m = 0 then (0, emin - mbits) else
  let q := lastPlace mbits emin m e
  let r := if q ≤ e then m * 2 ^ (e - q).toNat else rneShift m (q - e).toNat
  if r = 2 ^ (mbits + 1) then (2 ^ mbits, q + 1) else (r, q)

/-- The magnitude code of r × 2^q in a format with `mbits` fraction bits and least exponent `emin`. -/
def codeOf (mbits : Nat) (emin : Int) (r : Nat) (q : Int) : Nat :=
  if r < 2 ^ mbits then r
  else (q + mbits - emin + 1).toNat * 2 ^ mbits + (r - 2 ^ mbits)

/-- An IEEE format by its exponent and fraction widths (R54). -/
structure FFmt where
  ebits : Nat
  mbits : Nat
  deriving DecidableEq, Repr

/-- FP32 is IEEE 754 binary32 (R54). -/
def fp32 : FFmt := ⟨8, 23⟩
/-- BF16: 8 exponent bits, bias 127, 7 fraction bits (R54). -/
def bf16 : FFmt := ⟨8, 7⟩

/-- Exponent bias of an IEEE format. -/
def FFmt.bias (f : FFmt) : Nat := 2 ^ (f.ebits - 1) - 1
/-- The least exponent of a normal number. -/
def FFmt.emin (f : FFmt) : Int := 1 - (f.bias : Int)
/-- The sign bit's weight. -/
def FFmt.signW (f : FFmt) : Nat := 2 ^ (f.ebits + f.mbits)
/-- The code of infinity. -/
def FFmt.infCode (f : FFmt) : Nat := (2 ^ f.ebits - 1) * 2 ^ f.mbits

/-- An IEEE code read as a value, subnormals included (R54, R67). -/
def decodeF (f : FFmt) (x : Nat) : FVal :=
  let neg := natBit x (f.ebits + f.mbits)
  let ex := (x / 2 ^ f.mbits) % 2 ^ f.ebits
  let fr := x % 2 ^ f.mbits
  if ex = 2 ^ f.ebits - 1 then (if fr = 0 then .inf neg else .nan)
  else if ex = 0 then .fin neg fr (f.emin - f.mbits)
  else .fin neg (2 ^ f.mbits + fr) ((ex : Int) - f.bias - f.mbits)

/-- A value rounded once to an IEEE format (R67); every FP32 NaN is the quiet NaN 0x7FC0_0000 (R68, R171). DESIGN CHOICE: every BF16 NaN, a
QNT's (R85) and the vector and spring units' among them, is 0x7FC0, of which the spec says neither sign nor payload. -/
def encodeF (f : FFmt) : FVal → Nat
  | .nan => f.infCode + 2 ^ (f.mbits - 1)
  | .inf neg => bit neg * f.signW + f.infCode
  | .fin neg m e =>
    let rq := roundOpen f.mbits f.emin m e
    bit neg * f.signW + min (codeOf f.mbits f.emin rq.1 rq.2) f.infCode

/-- An FP32 word read as a value. -/
def f32 (x : W32) : FVal := decodeF fp32 x.toNat
/-- A value rounded to FP32. -/
def toF32 (v : FVal) : W32 := BitVec.ofNat 32 (encodeF fp32 v)
/-- A BF16 code widened to FP32 exactly (R113). -/
def bfToF32 (x : Nat) : W32 := BitVec.ofNat 32 (x % 65536 * 65536)

/-- A signed integer times a power of two as a value; an exact zero is +0.0 (R68). -/
def ofInt (i : Int) (e : Int) : FVal := .fin (decide (i < 0)) i.natAbs e

/-- The signed integer of a finite magnitude over 2^e', where e' is at most its exponent. -/
def signedAt (neg : Bool) (m : Nat) (e e' : Int) : Int :=
  (if neg then -1 else 1) * (m * 2 ^ (e - e').toNat : Nat)

/-- The exact sum of two values; opposite infinities give NaN, and zeros of opposite sign give +0.0 (R68, R171). -/
def vAdd : FVal → FVal → FVal
  | .nan, _ => .nan
  | _, .nan => .nan
  | .inf a, .inf b => if a = b then .inf a else .nan
  | .inf a, .fin .. => .inf a
  | .fin .., .inf b => .inf b
  | .fin a m e, .fin b n g =>
    let q := min e g
    let i := signedAt a m e q + signedAt b n g q
    if i = 0 then .fin (a && b) 0 q else ofInt i q

/-- The exact product of two values; an infinity times zero gives NaN (R68). -/
def vMul : FVal → FVal → FVal
  | .nan, _ => .nan
  | _, .nan => .nan
  | .inf a, .inf b => .inf (a != b)
  | .inf a, .fin b n _ => if n = 0 then .nan else .inf (a != b)
  | .fin a m _, .inf b => if m = 0 then .nan else .inf (a != b)
  | .fin a m e, .fin b n g => .fin (a != b) (m * n) (e + g)

/-- The negated value. -/
def vNeg : FVal → FVal
  | .nan => .nan
  | .inf a => .inf (!a)
  | .fin a m e => .fin (!a) m e

/-- `x < y` for values that are no NaN. -/
def vLt : FVal → FVal → Bool
  | .nan, _ => false
  | _, .nan => false
  | .inf a, .inf b => a && !b
  | .inf a, .fin .. => a
  | .fin .., .inf b => !b
  | .fin a m e, .fin b n g =>
    let q := min e g
    decide (signedAt a m e q < signedAt b n g q)

/-- Whether a value is a zero. -/
def vIsZero : FVal → Bool
  | .fin _ m _ => m == 0
  | _ => false

/-- VOP max: a NaN operand gives NaN, zeros of opposite sign give +0.0 in either order (R113). -/
def vMax (x y : FVal) : FVal :=
  match x, y with
  | .nan, _ => .nan
  | _, .nan => .nan
  | _, _ =>
    if vIsZero x && vIsZero y then
      match x, y with
      | .fin a m e, .fin b _ _ => .fin (a && b) m e
      | _, _ => x
    else if vLt x y then y else x

/-- FP32 addition rounded once (R67, R171). -/
def fAdd (a b : W32) : W32 := toF32 (vAdd (f32 a) (f32 b))
/-- FP32 multiplication rounded once. -/
def fMul (a b : W32) : W32 := toF32 (vMul (f32 a) (f32 b))
/-- FP32 a × b + d rounded once (R113). -/
def fFma (a b d : W32) : W32 := toF32 (vAdd (vMul (f32 a) (f32 b)) (f32 d))
/-- FP32 maximum (R113). -/
def fMax (a b : W32) : W32 := toF32 (vMax (f32 a) (f32 b))
/-- FP32 negation. -/
def fNeg (a : W32) : W32 := a ^^^ 0x80000000#32
/-- BF16 addition rounded once to BF16 (R171). -/
def bfAdd (a b : Nat) : Nat := encodeF bf16 (vAdd (decodeF bf16 a) (decodeF bf16 b))

/-- FP32 constants. -/
def fOne : W32 := 0x3F800000#32
def fNegInf : W32 := 0xFF800000#32
def fPosInf : W32 := 0x7F800000#32

/-! ### The fixed functions (R113): within 1 ulp, by bounds and a free choice of neighbour -/

/-- The integer square root of `n`, bit by bit from bit `i` − 1 down. -/
def isqrtBits : Nat → Nat → Nat → Nat
  | 0, _, r => r
  | i + 1, n, r => isqrtBits i n (if (r + 2 ^ i) * (r + 2 ^ i) ≤ n then r + 2 ^ i else r)

/-- ⌊√n⌋ for n below 2^(2 × 160). -/
def isqrt (n : Nat) : Nat := isqrtBits 160 n 0

/-- The code of the largest FP32 number of magnitude at most m × 2^e. -/
def floorF32 (m : Nat) (e : Int) : Nat :=
  if m = 0 then 0 else
  let q := lastPlace 23 fp32.emin m e
  let r := if q ≤ e then m * 2 ^ (e - q).toNat else m / 2 ^ (q - e).toNat
  min (codeOf 23 fp32.emin r q) fp32.infCode

/-- The code of the smallest FP32 number of magnitude at least m × 2^e. -/
def ceilF32 (m : Nat) (e : Int) : Nat :=
  if m = 0 then 0 else
  let q := lastPlace 23 fp32.emin m e
  if q ≤ e then floorF32 m e
  else if m % 2 ^ (q - e).toNat = 0 then floorF32 m e
  else min (floorF32 m e + 1) fp32.infCode

/-- 2^(2^−i) in 100 fraction bits, rounded down. -/
def root2 : Nat → Nat
  | 0 => 2 * 2 ^ 100
  | i + 1 => isqrt (root2 i * 2 ^ 100)

/-- The product of 2^(2^−i) over the bits of an 80-bit fraction, in 100 fraction bits, rounded down. The roots are formed
one from the other on the way: `c` is the root of the bit before. -/
def exp2Bits : Nat → Nat → Nat → Nat → Nat
  | 0, _, _, acc => acc
  | k + 1, fr, c, acc =>
    let c' := isqrt (c * 2 ^ 100)
    exp2Bits k fr c' (if natBit fr k then acc * c' / 2 ^ 100 else acc)

/-- exp2 of a finite number that is no integer: its two neighbours, one of them chosen freely (R113). -/
def exp2Frac (x : W32) (i : Int) (q : Int) : Nat :=
  -- x = i × 2^q with q < 0
  let s := (-q).toNat
  let n := i.fdiv (2 ^ s : Nat)
  let f := (i.fmod (2 ^ s : Nat)).toNat
  let fr := f * 2 ^ 80 / 2 ^ s
  let lo := exp2Bits 80 fr (2 * 2 ^ 100) (2 ^ 100)
  let hi := min (lo + lo / 2 ^ 76 + 1) (2 ^ 101)  -- the exact value stays below 2^(n + 1)
  if n ≥ 128 then fp32.infCode
  else if n < -200 then (if Config.exp2Up x then 1 else 0)
  else if Config.exp2Up x then ceilF32 hi (n - 100) else floorF32 lo (n - 100)

/-- 2^a as the device computes it (R113): exact for an integer, else within 1 ulp. -/
def fExp2 (x : W32) : W32 :=
  match f32 x with
  | .nan => qnan
  | .inf neg => if neg then 0 else fPosInf
  | .fin neg m e =>
    if m = 0 then fOne else
    let i : Int := if neg then -(m : Int) else m
    if 0 ≤ e then toF32 (if neg then .fin false 1 (max (-400) (i * (2 ^ (min e 20).toNat : Nat)))
      else if e > 20 then .inf false else .fin false 1 (min 400 (i * (2 ^ e.toNat : Nat))))
    else if m % 2 ^ (-e).toNat = 0 then toF32 (.fin false 1 (max (-400) (min 400 (i.fdiv (2 ^ (-e).toNat : Nat)))))
    else BitVec.ofNat 32 (exp2Frac x i e)

/-- 1 ÷ a as the device computes it (R113): exact for a power of two, else within 1 ulp. -/
def fRecip (x : W32) : W32 :=
  match f32 x with
  | .nan => qnan
  | .inf neg => BitVec.ofNat 32 (bit neg * fp32.signW)
  | .fin neg m e =>
    if m = 0 then toF32 (.inf neg) else
    if 2 ^ Nat.log2 m = m then toF32 (.fin neg 1 (-(e + (Nat.log2 m : Int)))) else
    let q := 2 ^ 120 / m
    let c := if Config.recipUp x then ceilF32 (q + 1) (-e - 120) else floorF32 q (-e - 120)
    BitVec.ofNat 32 (bit neg * fp32.signW + c)

/-- 1 ÷ √a as the device computes it (R113): within 1 ulp; a negative operand gives NaN, ±0 gives ±∞. -/
def fRsqrt (x : W32) : W32 :=
  match f32 x with
  | .nan => qnan
  | .inf neg => if neg then qnan else 0
  | .fin neg m e =>
    if m = 0 then toF32 (.inf neg) else if neg then qnan else
    let odd := e.emod 2 = 1
    let m' := if odd then 2 * m else m
    let h := (if odd then e - 1 else e) / 2
    let n := 2 ^ 240 / m'
    let r := isqrt n
    if r * r * m' = 2 ^ 240 then
      let c := floorF32 r (-h - 120)
      BitVec.ofNat 32 (match Config.rsqrtPick x % 3 with | 0 => c | 1 => c - 1 | _ => c + 1)
    else if Config.rsqrtPick x % 2 = 1 then BitVec.ofNat 32 (ceilF32 (r + 1) (-h - 120))
    else BitVec.ofNat 32 (floorF32 r (-h - 120))

/-- `n` fraction bits of log₂ of x, where x lies in [1, 2) with 120 fraction bits. -/
def log2Bits : Nat → Nat → Nat → Nat
  | 0, _, acc => acc
  | n + 1, x, acc =>
    let y := x * x / 2 ^ 120
    if 2 ^ 121 ≤ y then log2Bits n (y / 2) (2 * acc + 1) else log2Bits n y (2 * acc)

/-- log₂ of a positive number as the device computes it (R113, RST): exact for a power of two, else within 1 ulp. -/
def fLog2 (x : W32) : W32 :=
  match f32 x with
  | .nan => qnan
  | .inf neg => if neg then qnan else fPosInf
  | .fin neg m e =>
    if m = 0 then fNegInf else if neg then qnan else
    let k : Int := e + (Nat.log2 m : Int)
    if 2 ^ Nat.log2 m = m then toF32 (ofInt k 0) else
    let fr := log2Bits 60 (m * 2 ^ (120 - Nat.log2 m)) 0
    let lo : Int := k * 2 ^ 60 + fr
    let hi : Int := lo + 4
    let up := Config.log2Up x
    let c := if 0 ≤ lo then (if up then ceilF32 hi.natAbs (-60) else floorF32 lo.natAbs (-60))
      else fp32.signW + (if up then floorF32 hi.natAbs (-60) else ceilF32 lo.natAbs (-60))
    BitVec.ofNat 32 c

/-! ### Element formats of the engine and QNT -/

/-- An E2M1 code's magnitude in halves (R50). -/
def e2m1Half (c : Nat) : Nat :=
  match c % 8 with
  | 0 => 0 | 1 => 1 | 2 => 2 | 3 => 3 | 4 => 4 | 5 => 6 | 6 => 8 | _ => 12

/-- An E2M1 code as a signed number of halves (R50). -/
def e2m1Int (c : Nat) : Int := if natBit c 3 then -(e2m1Half c : Int) else e2m1Half c

/-- An INT4 code as a signed number of halves (R51). -/
def int4Int (c : Nat) : Int := 2 * signedBits c 4

/-- A T2 code as a signed number of halves; the reserved code reads as 0 (R52). -/
def t2Int (c : Nat) : Int :=
  match c % 4 with
  | 1 => 2 | 3 => -2 | _ => 0

/-- An FP8 code as a value: E5M2 when `five`, else E4M3 (R53). -/
def fp8Val (five : Bool) (c : Nat) : FVal :=
  let neg := natBit c 7
  if five then
    let ex := (c / 4) % 32
    let fr := c % 4
    if ex = 31 then (if fr = 0 then .inf neg else .nan)
    else if ex = 0 then .fin neg fr (-16)
    else .fin neg (4 + fr) ((ex : Int) - 15 - 2)
  else
    let ex := (c / 8) % 16
    let fr := c % 8
    if ex = 15 ∧ fr = 7 then .nan
    else if ex = 0 then .fin neg fr (-9)
    else .fin neg (8 + fr) ((ex : Int) - 7 - 3)

/-- What QNT needs of an output element format (R82): fraction bits, least exponent, largest finite magnitude's code. -/
structure QFmt where
  mbits : Nat
  emin : Int
  /-- The largest finite magnitude is maxM × 2^maxE. -/
  maxM : Nat
  maxE : Int
  deriving DecidableEq, Repr

/-- E2M1: largest finite 6.0. -/
def qE2M1 : QFmt := ⟨1, 0, 3, 1⟩
/-- E4M3: largest finite 448. -/
def qE4M3 : QFmt := ⟨3, -6, 7, 6⟩
/-- E5M2: largest finite 57,344. -/
def qE5M2 : QFmt := ⟨2, -14, 7, 13⟩

/-- Whether r × 2^q exceeds the largest finite magnitude. -/
def QFmt.exceeds (f : QFmt) (r : Nat) (q : Int) : Bool :=
  let g := min q f.maxE
  decide (f.maxM * 2 ^ (f.maxE - g).toNat < r * 2 ^ (q - g).toNat)

/-- The code of the largest finite magnitude. -/
def QFmt.maxCode (f : QFmt) : Nat :=
  let rq := roundOpen f.mbits f.emin f.maxM f.maxE
  codeOf f.mbits f.emin rq.1 rq.2

/-- Whether a finite element overflows at scale 2^sc (R82). -/
def qOverflows (f : QFmt) (sc : Int) : FVal → Bool
  | .fin _ m e => let rq := roundOpen f.mbits f.emin m (e - sc); f.exceeds rq.1 rq.2
  | _ => false

/-- Whether an element flushes at scale 2^sc: nonzero, finite, and rounded to zero (R82). -/
def qFlushes (f : QFmt) (sc : Int) : FVal → Bool
  | .fin _ m e => m != 0 && (roundOpen f.mbits f.emin m (e - sc)).1 == 0
  | _ => false

/-- The code of an element at scale 2^sc: rounded, saturated when it overflows or is an infinity, and never a negative
zero (R82, R84, R86). The sign's weight is 2^sb. -/
def qCode (f : QFmt) (sb : Nat) (sc : Int) : FVal → Nat
  | .nan => 0
  | .inf neg => bit neg * 2 ^ sb + f.maxCode
  | .fin neg m e =>
    let rq := roundOpen f.mbits f.emin m (e - sc)
    if rq.1 = 0 then 0
    else if f.exceeds rq.1 rq.2 then bit neg * 2 ^ sb + f.maxCode
    else bit neg * 2 ^ sb + codeOf f.mbits f.emin rq.1 rq.2

end Sys2Proof.Machine
end

