-- ==== Sys2Proof/Machine/Codes.lean ====
section
/-! DEFINITION. The Reed-Solomon codes of the memories (R262, R263) and of the Rorek Link lanes (R331): fields, encoders and decoders. -/

namespace Sys2Proof.Machine

/-- A field GF(2ʷ) with its primitive polynomial, whose top bit is bit w. -/
structure Gf where
  w : Nat
  poly : Nat
  deriving DecidableEq, Repr

/-- The field of the memory code (R262). -/
def gfMem : Gf := ⟨16, 0x1100B⟩
/-- The field of the lane code (R331). -/
def gfLane : Gf := ⟨10, 0x409⟩

/-- The product of two elements. -/
def Gf.mul (f : Gf) (a b : Nat) : Nat :=
  (List.range f.w).foldl (fun acc i =>
    let d := if 2 ^ f.w ≤ 2 * acc then (2 * acc) ^^^ f.poly else 2 * acc
    if b.testBit (f.w - 1 - i) then d ^^^ a else d) 0

/-- A power, for exponents below 2ʷ. -/
def Gf.pow (f : Gf) (a n : Nat) : Nat :=
  (List.range f.w).foldl (fun acc i =>
    let q := f.mul acc acc
    if n.testBit (f.w - 1 - i) then f.mul q a else q) 1

/-- The inverse of a nonzero element. -/
def Gf.inv (f : Gf) (a : Nat) : Nat := f.pow a (2 ^ f.w - 2)
/-- A power of α, the root of the field's polynomial. -/
def Gf.alpha (f : Gf) (n : Nat) : Nat := f.pow 2 (n % (2 ^ f.w - 1))
/-- α to a negative power. -/
def Gf.alphaInv (f : Gf) (n : Nat) : Nat := f.alpha (2 ^ f.w - 1 - n % (2 ^ f.w - 1))

/-! Polynomials are lists of coefficients, the constant one first. -/

/-- The value of a polynomial. -/
def Gf.eval (f : Gf) (p : List Nat) (x : Nat) : Nat := p.foldr (fun c acc => f.mul acc x ^^^ c) 0
/-- The sum of two polynomials. -/
def polyAdd (p q : List Nat) : List Nat := (List.range (max p.length q.length)).map fun i => p.getD i 0 ^^^ q.getD i 0
/-- A polynomial times a constant. -/
def Gf.scale (f : Gf) (c : Nat) (p : List Nat) : List Nat := p.map (f.mul c)
/-- The generator polynomial with the roots α⁰ to αʳ⁻¹. -/
def Gf.generator (f : Gf) (r : Nat) : List Nat :=
  (List.range r).foldl (fun g i => polyAdd (0 :: g) (f.scale (f.alpha i) g)) [1]

/-- The check symbols of message symbols, given from the highest power down: the remainder of their polynomial, times xʳ, modulo the
generator, the constant coefficient first. -/
def Gf.checks (f : Gf) (r : Nat) (msg : List Nat) : List Nat :=
  let g := f.generator r
  msg.foldl (fun rem m =>
    let fb := m ^^^ rem.getD (r - 1) 0
    (List.range r).map fun i => (if i = 0 then 0 else rem.getD (i - 1) 0) ^^^ f.mul (g.getD i 0) fb) (List.replicate r 0)

/-- The syndromes S₀ to Sᵣ₋₁ of an error pattern: (power of x, value). A codeword has none, so they are those of the received word. -/
def Gf.syndromes (f : Gf) (r : Nat) (errs : List (Nat × Nat)) : List Nat :=
  (List.range r).map fun i => errs.foldl (fun acc e => acc ^^^ f.mul e.2 (f.alpha (i * e.1))) 0

/-- The working state of the search for the error locator. -/
structure Locator where
  c : List Nat
  b : List Nat
  len : Nat
  shift : Nat
  last : Nat
  deriving DecidableEq, Repr

/-- The shortest recurrence of the syndromes: the error locator and its length. -/
def Gf.locator (f : Gf) (syn : List Nat) : List Nat × Nat :=
  let x := (List.range syn.length).foldl (fun (x : Locator) n =>
    let d := (List.range (x.len + 1)).foldl (fun acc i => acc ^^^ f.mul (x.c.getD i 0) (syn.getD (n - i) 0)) 0
    if d = 0 then { x with shift := x.shift + 1 }
    else
      let c := polyAdd x.c (List.replicate x.shift 0 ++ f.scale (f.mul d (f.inv x.last)) x.b)
      if 2 * x.len ≤ n then { c := c, b := x.c, len := n + 1 - x.len, shift := 1, last := d }
      else { x with c := c, shift := x.shift + 1 }) ⟨[1], [1], 0, 1, 1⟩
  (x.c, x.len)

/-- What a decoder corrects: at most `t` errors among the first `n` powers that have exactly the syndromes given, or none of that kind. -/
def Gf.correct (f : Gf) (t n : Nat) (syn : List Nat) : Option (List (Nat × Nat)) :=
  if syn.all (· == 0) then some [] else
  let l := f.locator syn
  if t < l.2 then none else
  let at_ := (List.range n).filter fun p => f.eval l.1 (f.alphaInv p) == 0
  if at_.length ≠ l.2 then none else
  let omega := (List.range syn.length).map fun i => (List.range (i + 1)).foldl (fun acc j => acc ^^^ f.mul (l.1.getD j 0) (syn.getD (i - j) 0)) 0
  let slope := (List.range l.1.length).map fun i => if i % 2 = 0 then l.1.getD (i + 1) 0 else 0
  let errs := at_.map fun p =>
    let y := f.alphaInv p
    (p, f.mul (f.alpha p) (f.mul (f.eval omega y) (f.inv (f.eval slope y))))
  if f.syndromes syn.length errs == syn then some errs else none

/-! ### The memory code (R262, R263) -/

/-- The power of x of a symbol position: data symbol j stands at 5 + j, check symbol kᵢ (position 64 + i) at i, and P at 69. -/
def memPower (p : Nat) : Nat := if p < 64 then 5 + p else if p < 69 then p - 64 else 69
/-- The symbol position of a power of x. -/
def memPos (n : Nat) : Nat := if n < 5 then 64 + n else if n < 69 then n - 5 else 69

/-- The ten check bytes of a word of 128 bytes (R262): k₀ to k₄, with the poison symbol in force. -/
def memChecks (bs : List Byte) (poison : Bool) : List Byte :=
  let sym := fun j => (bs.getD (2 * j) 0).toNat + 256 * (bs.getD (2 * j + 1) 0).toNat
  (gfMem.checks 5 ((if poison then 0xFFFF else 0) :: (List.range 64).map fun i => sym (63 - i))).flatMap fun k =>
    [BitVec.ofNat 8 k, BitVec.ofNat 8 (k / 256)]

/-- What the decoder locates in a word with the given symbol errors (position, difference): up to two errors, by position, or none that fit. -/
def memLocate (errs : List (Nat × Nat)) : Option (List (Nat × Nat)) :=
  (gfMem.correct 2 70 (gfMem.syndromes 5 (errs.map fun e => (memPower e.1, e.2)))).map fun xs => xs.map fun x => (memPos x.1, x.2)

/-! ### The lane code (R331) -/

/-- The check symbols of a lane's codeword of 544 message symbols. DESIGN CHOICE: the first message symbol stands at the highest power. -/
def laneChecks (msg : List Nat) : List Nat := gfLane.checks 32 msg

/-- A codeword: its 544 message symbols, then its 32 check symbols from the highest power down. -/
def laneCodeword (msg : List Nat) : List Nat := msg ++ (laneChecks msg).reverse

/-- What the decoder makes of the symbol errors (place in the codeword 0 to 575, difference) of one codeword: the corrections, at most 16, or
none for an uncorrectable codeword. -/
def laneLocate (errs : List (Nat × Nat)) : Option (List (Nat × Nat)) :=
  (gfLane.correct 16 576 (gfLane.syndromes 32 (errs.map fun e => (575 - e.1, e.2)))).map fun xs => xs.map fun x => (575 - x.1, x.2)

end Sys2Proof.Machine
end

