-- ==== Sys2Proof/Machine/Certs.lean ====
section
/-! DEFINITION. X.509 certificates (R426, R427, R438): DER, the fields that the device uses, and chains up to the root hash. PRESUMED: the forms are those
of the public standards that the words DER and X.509 v3 name (X.690, RFC 5280, RFC 5480). -/

namespace Sys2Proof.Machine

/-! ### DER -/

/-- An element: its tag, all its bytes, and its contents. -/
structure DerElem where
  tag : Nat
  whole : List Byte
  body : List Byte
  deriving DecidableEq, Repr

/-- The tag of the element at the front, the bytes of its head, and those of its contents. -/
def derHead (bs : List Byte) : Option (Nat × Nat × Nat) :=
  let l := (bs.getD 1 0).toNat
  if bs.length < 2 then none
  else if l < 0x80 then some ((bs.getD 0 0).toNat, 2, l)
  else
    let k := l - 0x80
    if 1 ≤ k ∧ k ≤ 3 ∧ 2 + k ≤ bs.length then some ((bs.getD 0 0).toNat, 2 + k, beNat (bytesAt bs 2 k)) else none

/-- Elements one after another; none where one is malformed. `pad` lets up to 15 zero bytes follow the last. The fuel bounds their number. -/
def derRun (pad : Bool) : Nat → List Byte → Option (List DerElem)
  | 0, _ => none
  | fuel + 1, bs =>
    if bs.isEmpty || (pad && decide (bs.length < 16) && bs.all (· == 0)) then some [] else do
      let h ← derHead bs
      let n := h.2.1 + h.2.2
      if bs.length < n then none else
        let rest ← derRun pad fuel (bs.drop n)
        some (⟨h.1, bs.take n, (bs.take n).drop h.2.1⟩ :: rest)

/-- All elements of some bytes. -/
def derElems (bs : List Byte) : Option (List DerElem) := derRun false (bs.length + 1) bs

/-- The elements within an element of a tag. -/
def derKids (tag : Nat) (e : DerElem) : Option (List DerElem) := if e.tag = tag then derElems e.body else none

/-! ### Certificates -/

/-- What the device uses of a certificate: the bytes that are signed, the signature, the subject's public key (R425), and the subject's attributes by
their object identifiers. -/
structure Cert where
  tbs : List Byte
  sig : List Byte
  key : List Byte
  subject : List (List Byte × List Byte)
  deriving DecidableEq, Repr

/-- The attributes of a name. -/
def derName (e : DerElem) : Option (List (List Byte × List Byte)) := do
  let sets ← derKids 0x30 e
  let attrs ← sets.mapM (derKids 0x31)
  attrs.flatten.mapM fun a => do
    let [o, v] ← derKids 0x30 a | none
    if o.tag = 6 then some (o.body, v.body) else none

/-- A subject's public key: an uncompressed point in a BIT STRING. -/
def derKey (e : DerElem) : Option (List Byte) := do
  let [_, k] ← derKids 0x30 e | none
  if k.tag = 3 ∧ k.body.take 2 = [0, 4] ∧ k.body.length = 98 then some (k.body.drop 2) else none

/-- A signature: a BIT STRING with a SEQUENCE of the two numbers, here in R425's form. -/
def derSig (e : DerElem) : Option (List Byte) := do
  let [q] ← derElems (e.body.drop 1) | none
  let [r, x] ← derKids 0x30 q | none
  if e.tag = 3 ∧ r.tag = 2 ∧ x.tag = 2 ∧ beNat r.body < 2 ^ 384 ∧ beNat x.body < 2 ^ 384 then
    some (beBytes 48 (beNat r.body) ++ beBytes 48 (beNat x.body)) else none

/-- A certificate of version 3, whose first field is its version. -/
def certOf (c : DerElem) : Option Cert := do
  let [tbs, _, sig] ← derKids 0x30 c | none
  let v :: _ :: _ :: _ :: _ :: subject :: key :: _ ← derKids 0x30 tbs | none
  if v.tag ≠ 0xA0 then none else
    some ⟨tbs.whole, ← derSig sig, ← derKey key, ← derName subject⟩

/-- The certificates of a chain; zeros may pad its last fragment (R348). -/
def chainCerts (bs : List Byte) : List Cert := ((derRun true (bs.length + 1) bs).bind (·.mapM certOf)).getD []

/-- Whether a key signed a certificate. -/
def signedBy (key : List Byte) (c : Cert) : Bool := ecdsaOk key (sha384 c.tbs) c.sig

/-- Whether each certificate is signed by the next one, and the last by a key whose SHA-384 equals the root hash (R426). -/
def chainSigned : List Cert → Bool
  | [] => false
  | [c] => bytesAt (sha384 Config.rootKey) 0 48 == Config.rootHash && signedBy Config.rootKey c
  | c :: d :: cs => signedBy d.key c && chainSigned (d :: cs)

/-- The first attribute of a subject under an object identifier; nothing where it has none. -/
def Cert.attr (c : Cert) (oid : List Byte) : List Byte := ((c.subject.find? fun x => x.1 == oid).map (·.2)).getD []

/-- serialNumber, 2.5.4.5. -/
def Cert.serial (c : Cert) : List Byte := c.attr [0x55, 0x04, 0x05]
/-- organizationalUnitName, 2.5.4.11. -/
def Cert.unit (c : Cert) : List Byte := c.attr [0x55, 0x04, 0x0B]

/-- A serial number as 16 upper-case hexadecimal digits (R426). -/
def serialHex (n : Nat) : List Byte :=
  (List.range 16).map fun i => let d := n / 16 ^ (15 - i) % 16; BitVec.ofNat 8 (if d < 10 then 48 + d else 55 + d)

/-- The device certificate of a chain: its first one. -/
def deviceCert (bs : List Byte) : Option Cert := (chainCerts bs).head?

/-- The public key that a chain's device certificate carries. -/
def chainKey (bs : List Byte) : List Byte := ((deviceCert bs).map (·.key)).getD []

/-- Whether a chain verifies and its device certificate names a serial number. -/
def chainNames (bs : List Byte) (serial : Nat) : Bool :=
  chainSigned (chainCerts bs) && (deviceCert bs).any fun c => c.serial == serialHex serial

/-- What the device requires of a neighbour's chain (R427), but for the signature of its KEYX. -/
def peerChainOk (bs : List Byte) (serial : Nat) : Bool :=
  chainNames bs serial && (deviceCert bs).any fun c => c.unit.take 6 == ascii "KN-6C-"

/-- Whether a signer chain verifies, its signing certificate is the firmware's, and its key signed a digest (R438). -/
def signerOk (bs digest sig : List Byte) : Bool :=
  chainSigned (chainCerts bs) && (deviceCert bs).any fun c => c.unit == ascii "KN firmware" && ecdsaOk c.key digest sig

end Sys2Proof.Machine
end

