-- ==== Sys2Proof/Machine/Flash.lean ====
section
/-! DEFINITION. The external flash (R424, R436, R437, R446): its bytes, its areas with two copies under the device's keys, its wear, the soft-repair record
(R275, R276) and the persistent log (R471, R472). -/

namespace Sys2Proof.Machine

/-! ### Bytes -/

/-- A byte of the flash: an erased one reads 0xFF. -/
def flashByte (s : State) (i : Nat) : Byte := smapGet 0xFF s.dev.flash i

/-- Bytes of the flash. -/
def flashBytes (s : State) (i n : Nat) : List Byte := (List.range n).map fun j => flashByte s (i + j)

/-- Bytes written from `i` on. -/
def flashPut (m : List Host.Cell) (i : Nat) (bs : List Byte) : List Host.Cell :=
  m.filter (fun e => decide (e.1 < i)) ++ ((span i (i + bs.length)).zip bs).filter (fun e => e.2 != 0xFF)
    ++ m.filter (fun e => decide (i + bs.length ≤ e.1))

/-- Bytes of the flash written into erased cells. -/
def program (i : Nat) (bs : List Byte) (s : State) : State := updDev s fun d => { d with flash := flashPut d.flash i bs }

/-- The first byte of a firmware slot (R436). -/
def slotBase (n : Nat) : Nat := if n = 0 then 0x40_0000 else 0x200_0000
/-- Bytes of a firmware slot. -/
def slotSize : Nat := 28 * 2 ^ 20

/-- A key derived from the device secret under its label (R424): HKDF-SHA-384 without a salt. -/
def deviceKey (s : State) (label : String) (n : Nat) : List Byte := hkdf (Config.deviceSecret s.serial) [] (ascii label) n

/-! ### Areas with two copies (R436, R437) -/

/-- An area: the first byte of its first copy, the bytes of a copy, its key's label, and the place of a copy's sequence number. -/
structure Area where
  base : Nat
  size : Nat
  label : String
  seqOff : Nat
  deriving DecidableEq, Repr

def bootArea : Area := ⟨0x1_0000, 0x1000, "KNBOOT", 4⟩
def settingsArea : Area := ⟨0x2_0000, 0x8000, "KNSET", 4⟩
def repairArea : Area := ⟨0x3_0000, 0x8000, "KNREPAIR", 4⟩
def wearArea : Area := ⟨0x4_0000, 0x1_0000, "KNWEAR", 4⟩

/-- A copy's fields, where its HMAC over them passes: `len` gives their bytes, none for a copy that does not qualify. -/
def copyValid (s : State) (a : Area) (len : Nat → Option Nat) (i : Nat) : Option (List Byte) :=
  let o := a.base + a.size * i
  match len o with
  | none => none
  | some n =>
    let bs := flashBytes s o n
    if n + 48 ≤ a.size ∧ flashBytes s (o + n) 48 = hmac384 (deviceKey s a.label 48) bs then some bs else none

/-- The copy in force (R437): the valid one, of two the one whose sequence number is after the other's. -/
def areaRead (s : State) (a : Area) (len : Nat → Option Nat) : Option (AreaAt × List Byte) :=
  let seq := fun bs => fieldAt bs a.seqOff 4
  match copyValid s a len 0, copyValid s a len 1 with
  | some x, some y => if seqAfter (seq y) (seq x) then some (⟨seq y, 1⟩, y) else some (⟨seq x, 0⟩, x)
  | some x, none => some (⟨seq x, 0⟩, x)
  | none, some y => some (⟨seq y, 1⟩, y)
  | none, none => none

/-! ### Erases and wear (R446) -/

/-- One erase of a sector counted in its 24 bits; FLASH_WEAR at 90,000 and each further 10,000. -/
def countErase (n : Nat) (s : State) : State :=
  let c := min (2 ^ 24 - 1) (smapGet 0 s.dev.wear n + 1)
  let s1 := updDev s fun d => { d with
    wear := smapSet 0 d.wear n c
    flash := d.flash.filter fun e => e.1 / 4096 != n }
  if 90000 ≤ c ∧ c % 10000 = 0 then warn 3 0x06 0xFF 0xFF 0xFF s1 else s1

/-- The fields of a copy of the wear table: a count of three bytes for each of the 16,384 sectors. -/
def wearFields (wear : SMap Nat) (seq : Nat) : List Byte :=
  ascii "KNWR" ++ leBytes 4 seq ++ (List.range 16384).flatMap fun n => leBytes 3 (smapGet 0 wear n)

/-- A copy written over the one not read (R437): its sectors erased by `erase`, the fields with the next sequence number, and their HMAC. -/
def areaWriteBy (erase : Nat → State → State) (a : Area) (at_ : AreaAt) (fields : State → Nat → List Byte) (s : State) : State × AreaAt :=
  let i := 1 - at_.copy
  let q := (at_.seq + 1) % 2 ^ 32
  let o := a.base + a.size * i
  let s1 := forEach (span (o / 4096) ((o + a.size) / 4096)) (fun s n => erase n s) s
  let bs := fields s1 q
  (program o (bs ++ hmac384 (deviceKey s1 a.label 48) bs) s1, ⟨q, i⟩)

/-- The wear table written (R446). -/
def writeWear (s : State) : State :=
  let w := areaWriteBy countErase wearArea s.dev.wearCopy (fun s q => wearFields s.dev.wear q) s
  updDev w.1 fun d => { d with wearAt := d.wear, wearCopy := w.2 }

/-- A sector erased and counted; a count that has risen by 64 since the last table write has the table written (R446). -/
def eraseSector (n : Nat) (s : State) : State :=
  let s1 := countErase n s
  if smapGet 0 s1.dev.wearAt n + 64 ≤ smapGet 0 s1.dev.wear n then writeWear s1 else s1

/-- A copy of a two-copy area written (R437). -/
def areaWrite (a : Area) (at_ : AreaAt) (fields : Nat → List Byte) (s : State) : State × AreaAt :=
  areaWriteBy eraseSector a at_ (fun _ q => fields q) s

/-- The three-byte counts of a wear table, from a sector number on, those that are not 0. -/
def wearCounts : Nat → List Byte → SMap Nat
  | n, a :: b :: c :: bs =>
    let v := a.toNat + 256 * b.toNat + 65536 * c.toNat
    if v = 0 then wearCounts (n + 1) bs else (n, v) :: wearCounts (n + 1) bs
  | _, _ => []

/-- The bytes of a wear table's fields. -/
def wearLen (s : State) (o : Nat) : Option Nat := if flashBytes s o 4 = ascii "KNWR" then some (8 + 3 * 16384) else none

/-- The wear table read as Meridian starts (R446): no valid copy, no counts. -/
def readWear (s : State) : State :=
  match areaRead s wearArea (wearLen s) with
  | some r => updDev s fun d => { d with wear := wearCounts 0 (r.2.drop 8), wearAt := wearCounts 0 (r.2.drop 8), wearCopy := r.1 }
  | none => updDev s fun d => { d with wear := [], wearAt := [], wearCopy := {} }

/-- A sector of a slot written (R440): erased first, and 0xFF beyond the data. -/
def writeSector (at_ : Nat) (data : List Byte) (s : State) : State := program at_ data (eraseSector (at_ / 4096) s)

/-! ### Boot control (R439) -/

/-- The fields of the boot-control record. -/
def bootFields (active lastGood seq : Nat) : List Byte :=
  ascii "KNBC" ++ leBytes 4 seq ++ leBytes 1 active ++ leBytes 1 lastGood ++ List.replicate 6 0

/-- The bytes of a boot-control record's fields. -/
def bootLen (s : State) (o : Nat) : Option Nat := if flashBytes s o 4 = ascii "KNBC" then some 16 else none

/-- Boot control read (R437, R439): with no valid copy, `ACTIVE` is taken as 0. -/
def readBootControl (s : State) : State :=
  match areaRead s bootArea (bootLen s) with
  | some r => updDev s fun d => { d with active := fieldAt r.2 8 1 % 2, lastGood := fieldAt r.2 9 1, bootAt := r.1 }
  | none => updDev s fun d => { d with active := 0, lastGood := 0xFF, bootAt := {} }

/-- Boot control written (R437, R439): the copy that was not read. -/
def writeBootControl (s : State) : State :=
  let w := areaWrite bootArea s.dev.bootAt (bootFields s.dev.active s.dev.lastGood) s
  updDev w.1 fun d => { d with bootAt := w.2 }

/-! ### The soft-repair record (R275, R276) -/

/-- The kinds of an entry (R275). -/
def rkDramRow : Nat := 0
def rkDramGroup : Nat := 1
def rkTarnRow : Nat := 2
def rkTarnGroup : Nat := 3
def rkCoreCol : Nat := 4
def rkColumn : Nat := 5
def rkHop : Nat := 6

/-- An entry of the soft-repair record (R275). -/
def repairWord (kind stack mdie pcol bank index : Nat) : Nat :=
  kind + 2 ^ 4 * stack + 2 ^ 7 * mdie + 2 ^ 10 * pcol + 2 ^ 18 * bank + 2 ^ 25 * index

/-- Whether an entry holds no reserved value (R275). -/
def repairOk (s : State) (e : Nat) : Bool :=
  let kind := e % 16
  let bank := natBits e 24 18
  decide (kind ≤ 6) && decide (natBits e 6 4 < 6) && decide (natBits e 17 10 < 200) && decide (e < 2 ^ 41)
    && (decide (2 ≤ kind) || (decide (natBits e 9 7 < s.mdies) && decide (bank < 16)))
    && (kind != 6 || decide (bank < 32)) && (kind != 4 || decide (natBits e 40 25 ≤ 32))

/-- The soft-repair record's header and entries (R275): the header's format version is 1. -/
def repairFields (es : List Nat) (seq : Nat) : List Byte :=
  leBytes 4 1 ++ leBytes 4 seq ++ leBytes 4 es.length ++ List.replicate 52 0 ++ es.flatMap (leBytes 8)

/-- The bytes of a record at an offset before its signature; none where its header is malformed. -/
def repairLen (s : State) (o : Nat) : Option Nat :=
  let n := leNat (flashBytes s (o + 8) 4)
  if leNat (flashBytes s o 4) = 1 ∧ n ≤ 1024 then some (64 + 8 * n) else none

/-- The record rewritten (R275, R437). -/
def writeRepair (es : List Nat) (s : State) : State :=
  let w := areaWrite repairArea s.dev.repairAt (repairFields es) s
  updDev w.1 fun d => { d with repair := es, repairAt := w.2 }

/-- The record as its bytes, signature and all (R275, R429); nothing where none is in force. -/
def repairBytes (s : State) : List Byte :=
  if s.dev.repairOn then
    let bs := repairFields s.dev.repair s.dev.repairAt.seq
    bs ++ hmac384 (deviceKey s "KNREPAIR" 48) bs
  else []

/-- An entry appended unless it is there; a full record warns once per package reset (R276). -/
def repairPut (e : Nat) (s : State) : State :=
  if s.dev.repair.contains e then s
  else if s.dev.repair.length < 1024 then writeRepair (s.dev.repair ++ [e]) s
  else if s.dev.repairFull then s
  else warn 3 0x07 0xFF 0xFF 0xFF (updDev s fun d => { d with repairFull := true })

/-- How many spares of a kind a bank is built with (R274); one spare core column in a cluster (R34). -/
def repairSpares (kind : Nat) : Nat :=
  match kind with
  | 0 => 32 | 1 => 8 | 2 => 16 | 3 => 4 | _ => 1

/-- A repair asked for: where the bank (or the cluster, for a core column) has no spare left of that kind, a column retirement (R274, R276). The fuse
map and the self-test have used their own; the record's other entries of that bank or cluster take theirs. -/
def repairAdd (e : Nat) (s : State) : State :=
  let kind := e % 16
  let same := s.dev.repair.filter fun x => x % 2 ^ 25 == e % 2 ^ 25
  let used := if kind = rkCoreCol then bit (s.dev.coreMap.any fun x => dcDie x.1 == natBits e 6 4 && dcPhys s x.1 == natBits e 17 10 && x.2 != natBits e 40 25)
    else if kind < 4 then Config.sparesUsed s.dev.bootNo (e % 2 ^ 25) else 0
  if kind < 5 ∧ !s.dev.repair.contains e ∧ repairSpares kind ≤ used + same.length then
    repairPut (repairWord rkColumn (natBits e 6 4) 0 (natBits e 17 10) 0 0) s
  else repairPut e s

/-- The physical core column of a core is to be replaced (R275, R276). -/
def repairCoreCol (c : Nat) (s : State) : State :=
  repairAdd (repairWord rkCoreCol (dcDie (lciDc c)) 0 (dcPhys s (lciDc c)) 0 (lciPhysCol s c)) s

/-- The record that the flash holds (R275, R437): which copy, and its entries. -/
def storedRepair (s : State) : Option (AreaAt × List Nat) :=
  (areaRead s repairArea (repairLen s)).map fun r => (r.1, (groupsOf 8 (r.2.drop 64)).map leNat)

/-- The record read at step 5 (R275, R437): the entries in force, and whether a record is. -/
def readRepair (s : State) : State :=
  match storedRepair s with
  | some r => updDev s fun d => { d with repair := r.2, repairAt := r.1, repairOn := true }
  | none => updDev s fun d => { d with repair := [], repairAt := {}, repairOn := false }

/-! ### The persistent log (R471, R472) -/

/-- An entry as its 64 bytes (R470). -/
def logBytes (e : LogEnt) : List Byte :=
  leBytes 8 e.seq ++ leBytes 8 e.time ++ leBytes 2 e.code ++ leBytes 1 e.sev ++ leBytes 1 e.part ++ bytesAt e.data 0 32 ++ List.replicate 12 0

/-- The first byte of a sector of the persistent log. -/
def plogBase (i : Nat) : Nat := 0x6_0000 + 4096 * i

/-- Whether a sector's HMAC, over its first 4,032 bytes, passes. -/
def plogAuth (s : State) (i : Nat) : Bool :=
  flashBytes s (plogBase i + 4032) 48 == hmac384 (deviceKey s "KNLOG" 48) (flashBytes s (plogBase i) 4032)

/-- A sector sealed with its HMAC. -/
def plogSeal (i : Nat) (s : State) : State :=
  program (plogBase i + 4032) (hmac384 (deviceKey s "KNLOG" 48) (flashBytes s (plogBase i) 4032)) s

/-- The header of a sector that begins with an entry: its sequence number, the boot number, and SEQ and TIME of the entry. -/
def plogHead (s : State) (e : LogEnt) : List Byte :=
  ascii "KNPL" ++ leBytes 4 s.dev.plogNum ++ leBytes 4 s.dev.bootNo ++ leBytes 8 e.seq ++ leBytes 8 e.time

/-- The sector of the persistent log written last, with its sequence number. -/
def plogLast (s : State) : Option (Nat × Nat) :=
  ((List.range 928).filter fun i => flashBytes s (plogBase i) 4 == ascii "KNPL").foldl (fun (m : Option (Nat × Nat)) i =>
    let q := leNat (flashBytes s (plogBase i + 4) 4)
    match m with
    | some (j, r) => if seqAfter q r then some (i, q) else some (j, r)
    | none => some (i, q)) none

/-- Where the log goes on after a reset (R472), found once in a boot, at step 3 or for the first entry before it: the sector after the one written last. -/
def plogPlace (s : State) : State :=
  if s.dev.plogFound then s else
  let at_ := match plogLast s with
    | none => (0, 0)
    | some (i, q) => ((i + 1) % 928, (q + 1) % 2 ^ 32)
  updDev s fun d => { d with plogFound := true, plogUsed := 0, plogPos := at_.1, plogNum := at_.2 }

/-- An entry appended (R472): a sector is erased when it is first written, and sealed when it fills. -/
def plogAppend (e : LogEnt) (s0 : State) : State :=
  let s := plogPlace s0
  let i := s.dev.plogPos
  let s1 := if s.dev.plogUsed = 0 then program (plogBase i) (plogHead s e) (eraseSector (0x60 + i) s) else s
  let s2 := updDev (program (plogBase i + 64 + 64 * s.dev.plogUsed) (logBytes e) s1) fun d => { d with plogUsed := d.plogUsed + 1 }
  if s2.dev.plogUsed = 62 then
    updDev (plogSeal i s2) fun d => { d with plogUsed := 0, plogPos := (i + 1) % 928, plogNum := (d.plogNum + 1) % 2 ^ 32 }
  else s2

/-- Whether a sector is one that a reset left open (R472): it is begun, it has no HMAC, and it is not the one that this boot has begun. -/
def plogOpen (s : State) (i : Nat) : Bool :=
  flashBytes s (plogBase i) 4 == ascii "KNPL" && flashBytes s (plogBase i + 4032) 48 == List.replicate 48 0xFF
    && !(decide (0 < s.dev.plogUsed) && i == s.dev.plogPos)

/-- The log at step 3 of a boot (R472): what a reset left open gets its HMAC. -/
def plogFind (s : State) : State :=
  let s1 := plogPlace s
  forEach ((List.range 928).filter (plogOpen s1)) (fun s i => plogSeal i s) s1

end Sys2Proof.Machine
end

