-- ==== Sys2Proof/Machine/Memory.lean ====
section
/-! DEFINITION. Reads and writes of the Tarn, the DRAM and the scratchpads: valid stores and fills (R206 to R211), the codes
and what they report (R262 to R273, R276), the scratchpads' valid bits and powered-down halves (R136 to R140). -/

namespace Sys2Proof.Machine

/-! ### The temperature of a memory die (R190, R204) -/

/-- The value of R204 of a memory die's layer at each site: the sensor's reading, or the accepted value that replaces a distrusted one; with
whether it is that modelled value. -/
def dieValues (s : State) (k d : Nat) : List (Int × Bool) :=
  (List.range 48).map fun i =>
    let x := smapGet {} (getSite s k i).layers (d + 2)
    if x.distrusted then (x.accepted, true) else (x.reading, false)

/-- The values alone. -/
def dieReadings (s : State) (k d : Nat) : List Int := (dieValues s k d).map (·.1)

/-- Whether the temperature in use, the hottest value, is a modelled one alone (R190). -/
def dieModelled (s : State) (k d : Nat) : Bool :=
  let vs := dieValues s k d
  let hot := vs.filter fun v => vs.all fun w => decide (w.1 ≤ v.1)
  hot.all (·.2)

/-! ### Reports of the codes -/

/-- The unit of a location, as `MEM_LOG.UNIT` has it. -/
def locUnit (l : Nat) : Nat := if locIsTarn l then 0 else 1

/-- A MEM_ERROR event (R273, R326): severe for an uncorrectable error and for the first poisoned read of a word. -/
def memErrorEvent (addr unit mdie cls rq stk sev : Nat) (s : State) : State :=
  raiseEvent 0x0107 sev (scopeOf (diePart s stk))
    (mkResult [(0, 8, addr), (8, 1, unit), (9, 1, mdie), (10, 1, cls), (11, 1, rq), (12, 1, stk), (16, 8, s.dev.time)]) s

/-- The entry of the soft-repair record for the row of a location (R275, R276). -/
def rowEntry (s : State) (l : Nat) : Nat :=
  let dc := locDc l
  if locIsTarn l then repairWord rkTarnRow (dcDie dc) 0 (dcPhys s dc) (tarnBank l) (locRow l)
  else repairWord rkDramRow (dcDie dc) (locMDie l) (dcPhys s dc) (dramBank l) (locRow l)

/-- The entry for a bit-column group of the bank of a location. -/
def groupEntry (s : State) (l g : Nat) : Nat :=
  let dc := locDc l
  if locIsTarn l then repairWord rkTarnGroup (dcDie dc) 0 (dcPhys s dc) (tarnBank l) g
  else repairWord rkDramGroup (dcDie dc) (locMDie l) (dcPhys s dc) (dramBank l) g

/-- The repair a bank row asks for (R276). -/
def repairRow (l : Nat) (s : State) : State := repairAdd (rowEntry s l) s

/-- The repair of a bit-column group of a bank (R276). -/
def repairGroup (l g : Nat) (s : State) : State := repairAdd (groupEntry s l g) s

/-- Whether two locations lie in one bank. -/
def sameBank (a b : Nat) : Bool :=
  locIsTarn a == locIsTarn b && locDc a == locDc b &&
    (if locIsTarn a then tarnBank a == tarnBank b else locMDie a == locMDie b && dramBank a == dramBank b)

/-- The location that a log entry's address names now. -/
def logLoc (s : State) (e : MemLog) : Option Nat :=
  match paDecode s e.addr with
  | .mem l => some l
  | _ => none

/-- The log entries of a stack that lie in the bank of a location. -/
def logInBank (s : State) (stk l : Nat) : List (MemLog × Nat) :=
  (getStk s stk).log.filterMap fun e =>
    match logLoc s e with
    | some l' => if sameBank l l' then some (e, l') else none
    | none => none

/-- What the log's entries ask to be repaired after a correction at a location (R276): a word at `REPEAT` 8 or two logged words
of one row, its row; four logged words of one bank that share a bit-column group, that group. -/
def repairFromLog (stk l : Nat) (pos : List Nat) (s : State) : State :=
  let inBank := logInBank s stk l
  let here := inBank.filter fun e => e.2 == l
  let row := inBank.filter fun e => locRow e.2 == locRow l
  let s := if here.any (fun e => decide (8 ≤ e.1.rep)) || decide (2 ≤ row.length) then repairRow l s else s
  forEach pos (fun s p =>
    let g := Config.bitColumnGroup (l / 128) p
    let share := inBank.filter fun e =>
      Config.bitColumnGroup (e.2 / 128) e.1.pos0 == g || (e.1.pos1 != 0x7F && Config.bitColumnGroup (e.2 / 128) e.1.pos1 == g)
    if 4 ≤ share.length then repairGroup l g s else s) s

/-- A corrected error put into the log table of a stack (R272). -/
def logCorrected (stk addr unit mdie nsym pos0 pos1 : Nat) (s : State) : State :=
  let k := getStk s stk
  let now := s.dev.time
  if k.log.any fun e => e.addr == addr then
    updStk s stk fun k => { k with
      log := mapIf (fun e => e.addr == addr) (fun e => { e with rep := sat16 (e.rep + 1), last := now }) k.log }
  else if k.log.length < 64 then
    updStk s stk fun k => { k with log := k.log ++ [{ addr := addr, unit := unit, mdie := mdie, nsym := nsym, first := now, last := now, rep := 1, pos0 := pos0, pos1 := pos1 }] }
  else
    let s1 := updStk s stk fun k => { k with logOvf := true, unlogged := satAdd k.unlogged 1 (2 ^ 32 - 1) }
    if k.logOvf then s1
    else warnSevere (Config.ovfWarning % 256) (Config.ovfWarning / 256) stk 0xFF 0xFF
      (updDev s1 fun d => { d with logCopies := d.logCopies ++ [(stk, k.log)] })

/-! ### The memory code (R262, R263) -/

/-- Whether a word's contents stand in its array: its granule or page is valid, or its fill entry's mask has it (R208, R210). -/
def wordValid (s : State) (w : Nat) : Bool :=
  let l := w * 128
  if locIsTarn l then s.mem.tarnValid.contains (l / 512)
  else s.mem.dramValid.contains (l / 4096) || s.mem.fills.any fun f => f.page == l / 4096 && natBit f.mask (w % 32)

/-- What the decoder makes of a word (R263). -/
inductive WordClass where
  | clean
  | corrected (pos : List Nat)
  | poisoned
  | uncorrectable
  /-- Four or more symbol errors that the decoder takes for these one or two, or for none (R263). -/
  | miscorrected (fix : List (Nat × Nat))
  deriving DecidableEq, Repr

/-- The class of a word with the given symbol errors (R263); a poisoned word has a further error of 0xFFFF at position 69. Up to three errors
the minimum distance of 6 decides; for more the decoder's own answer stands. -/
def classify (errs : List (Nat × Nat)) (poison : Bool) : WordClass :=
  let n := errs.length + bit poison
  if n = 0 then .clean
  else if 4 ≤ n then
    match memLocate (errs ++ (if poison then [(69, 0xFFFF)] else [])) with
    | none => .uncorrectable
    | some fix =>
      if fix.any fun e => e.1 == 69 then (if fix.contains (69, 0xFFFF) then .poisoned else .uncorrectable)
      else .miscorrected fix
  else if poison then (if errs.length ≤ 1 then .poisoned else .uncorrectable)
  else if n ≤ 2 then .corrected (errs.map (·.1))
  else .uncorrectable

/-- The class of a word as it stands. -/
def wordClass (s : State) (w : Nat) : WordClass :=
  classify (smapGet [] s.mem.flips w) (s.mem.poison.contains w)

/-! ### Cells that cannot hold a value (R208) -/

/-- The key of a word by its physical place: column, Tarn or memory die, and offset. -/
def memWordKey (s : State) (w : Nat) : Nat :=
  let l := w * 128
  let dc := locDc l
  ((dcDie dc * 200 + dcPhys s dc) * 5 + (if locIsTarn l then 0 else 1 + locMDie l)) * 2 ^ 21 + locOff l / 128

/-- A symbol of the codeword of a word as it should stand: data, or check symbol (R262). -/
def memSymbol (s : State) (w p : Nat) : Nat :=
  let bs := memBytes s.mem.bytes (w * 128) 128
  let two := fun (xs : List Byte) (i : Nat) => (xs.getD (2 * i) 0).toNat + 256 * (xs.getD (2 * i + 1) 0).toNat
  if p < 64 then two bs p else two (memChecks bs (s.mem.poison.contains w)) (p - 64)

/-- Whether a spare that the package reset has switched in (R274) replaces the row of a word, or the bit-column group of one of its symbols. -/
def spared (s : State) (w p : Nat) : Bool :=
  s.dev.spares.contains (rowEntry s (w * 128)) || s.dev.spares.contains (groupEntry s (w * 128) (Config.bitColumnGroup w p))

/-- The symbol errors that a word's stuck cells leave in it once it is written. -/
def stuckSymbols (s : State) (w : Nat) : List (Nat × Nat) :=
  (smapGet [] s.stuckMem (memWordKey s w)).filterMap fun x =>
    let d := (memSymbol s w x.1 ^^^ x.2.2) &&& x.2.1
    if d = 0 ∨ spared s w x.1 then none else some (x.1, d)

/-- The symbol errors of words written or written back: those of their stuck cells alone. -/
def resettle (ws : List Nat) (s : State) : State :=
  if s.stuckMem.isEmpty then s else
  updMem s fun m => { m with flips := ws.foldl (fun f w => smapSet [] f w (stuckSymbols s w)) m.flips }

/-- The count and the log of a corrected word (R266, R271, R272, R276). -/
def noteCorrected (w : Nat) (pos : List Nat) (s : State) : State :=
  let l := w * 128
  let stk := dcDie (locDc l)
  let s1 := if locIsTarn l then updStk s stk fun k => { k with ceTarn := k.ceTarn + 1 }
    else updMDie s stk (locMDie l) fun d => { d with ce := d.ce + 1 }
  let md := if locIsTarn l then 0 else locMDie l
  repairFromLog stk l pos <|
    logCorrected stk (locPa s l) (locUnit l) md pos.length (pos.getD 0 0) (pos.getD 1 0x7F) s1

/-- Differences put into a word's data symbols: a symbol is two bytes, little-endian (R262). -/
def xorSymbols (w : Nat) (errs : List (Nat × Nat)) (m : List Host.Cell) : List Host.Cell :=
  errs.foldl (fun m e =>
    if e.1 < 64 then
      let a := w * 128 + 2 * e.1
      let m1 := memPut m a (memByte m a ^^^ BitVec.ofNat 8 e.2)
      memPut m1 (a + 1) (memByte m1 (a + 1) ^^^ BitVec.ofNat 8 (e.2 / 256))
    else m) m

/-- A word taken for a codeword other than its own (R263): the data that the decoder delivers become the word's, from which the stored word
differs by what the decoder corrected; its check symbols are those of an ordinary word. -/
def rebase (w : Nat) (fix : List (Nat × Nat)) (s : State) : State :=
  updMem s fun m => { m with
    bytes := xorSymbols w fix (xorSymbols w (smapGet [] m.flips w) m.bytes)
    flips := smapSet [] m.flips w fix
    poison := setDel m.poison w }

/-- An uncorrectable word is rewritten as poisoned in the same bank step, its data symbols as read, and reported (R267, R269, R276). -/
def noteUncorrectable (w rq : Nat) (s : State) : State :=
  let l := w * 128
  let stk := dcDie (locDc l)
  let md := if locIsTarn l then 0 else locMDie l
  let s1 := updMem s fun m => { m with
    bytes := xorSymbols w (smapGet [] m.flips w) m.bytes
    flips := smapErase m.flips w, poison := setIns m.poison w, writeBack := setDel m.writeBack w }
  let s2 := if locIsTarn l then updStk s1 stk fun k => { k with ueTarn := k.ueTarn + 1 }
    else updMDie s1 stk (locMDie l) fun d => { d with ue := d.ue + 1 }
  repairRow l (memErrorEvent (locPa s l) (locUnit l) md 0 rq stk 2 (resettle [w] s2))

/-- A read that finds a poisoned word (R269, R271, R273): severe only the first time. -/
def notePoisoned (w rq : Nat) (s : State) : State :=
  let l := w * 128
  let stk := dcDie (locDc l)
  let md := if locIsTarn l then 0 else locMDie l
  let sev := if s.mem.poisonSeen.contains w then 0 else 2
  memErrorEvent (locPa s l) (locUnit l) md 1 rq stk sev <|
    updMem (updStk s stk fun k => { k with poisonReads := k.poisonReads + 1 }) fun m => { m with poisonSeen := setIns m.poisonSeen w }

/-- The decoder at work on one word that is read by requester class `rq`: what it reports, and whether it delivers data. -/
def readWord (w rq : Nat) (s : State) : State × Bool :=
  if !wordValid s w then (s, true) else
  match wordClass s w with
  | .clean => (s, true)
  | .corrected pos => (updMem (noteCorrected w pos s) fun m => { m with writeBack := setIns m.writeBack w }, true)
  | .poisoned => (notePoisoned w rq s, false)
  | .uncorrectable => (noteUncorrectable w rq s, false)
  | .miscorrected fix =>
    let s1 := rebase w fix s
    (if fix.isEmpty then s1 else updMem (noteCorrected w (fix.map (·.1)) s1) fun m => { m with writeBack := setIns m.writeBack w }, true)

/-- The words of a range that hold errors or poison, in address order. -/
def badWords (s : State) (loc n : Nat) : List Nat :=
  if n = 0 then [] else
  let lo := loc / 128
  let hi := (loc + n - 1) / 128
  let f := (s.mem.flips.map (·.1)).filter fun w => decide (lo ≤ w) && decide (w ≤ hi)
  let p := s.mem.poison.filter fun w => decide (lo ≤ w) && decide (w ≤ hi)
  p.foldl setIns f

/-- The words read in order, stopping at the first that delivers no data. -/
def readWords (rq : Nat) : List Nat → State → State × Option Nat
  | [], s => (s, none)
  | w :: ws, s =>
    let r := readWord w rq s
    if r.2 then readWords rq ws r.1 else (r.1, some (w * 128))

/-- Whether a memory rail of a location's stack has faulted: every access is answered BUS_ERROR (R406). -/
def railDead (s : State) (loc : Nat) : Bool := (getStk s (dcDie (locDc loc))).memFailed

/-- The words of an access counted for its column's estimate (R378). -/
def countMem (loc n : Nat) (s : State) : State :=
  countAct (locDc loc) (if locIsTarn loc then akTarn else akDram (locMDie loc)) (ceilDiv (loc % 128 + n) 128) s

/-- `n` bytes of Tarn or DRAM from a location, for requester class `rq` (R208, R263, R269, R406): the state with what was reported,
the location of the word in error if there is one, and the bytes. -/
def memLoad (loc n rq : Nat) (s : State) : State × Option Nat × List Byte :=
  if railDead s loc then (s, some loc, []) else
  let r := readWords rq (badWords s loc n) (countMem loc n s)
  (r.1, r.2, memBytes r.1.mem.bytes loc n)

/-! ### Valid stores and fills (R206 to R211) -/

/-- The fills of a column and memory die. -/
def fillsOf (s : State) (page : Nat) : List Fill :=
  s.mem.fills.filter fun f => f.page * 4096 / (192 * mib) == page * 4096 / (192 * mib)

/-- A page's fill completes (R210): every remaining word is written with zeros, the valid bit set and the entry freed. -/
def fillDone (page : Nat) (m : Mem) : Mem :=
  { m with fills := m.fills.filter (fun f => f.page != page), dramValid := setIns m.dramValid page }

/-- The same in the whole state: the words that the fill has written stand with their stuck cells (R208). -/
def fillEnd (page : Nat) (s : State) : State :=
  let mask := ((s.mem.fills.find? fun f => f.page == page).map (·.mask)).getD 0
  resettle (((List.range 32).filter fun i => !natBit mask i).map (page * 32 + ·)) (updMem s (fillDone page))

/-- Whether a first write into a DRAM page must wait for a fill entry: all 8 of its die are busy (R211). -/
def fillBusy (s : State) (loc : Nat) : Bool :=
  let page := loc / 4096
  !locIsTarn loc && !s.mem.dramValid.contains page && !(s.mem.fills.any fun f => f.page == page) &&
    decide (8 ≤ (fillsOf s page).length)

/-- The wait of a bank-side writer for a fill entry (R211): the oldest fill of the die completes and frees one. -/
def fillWaitNow (loc : Nat) (s : State) : State :=
  if fillBusy s loc then
    match fillsOf s (loc / 4096) with
    | f :: _ => updClu (fillEnd f.page s) (locDc loc) fun k => { k with fillWait := k.fillWait + 1 }
    | [] => s
  else s

/-- The valid bit or fill entry of a write into a word (R209 to R211). -/
def markWritten (w : Nat) (m : Mem) : Mem :=
  let l := w * 128
  if locIsTarn l then { m with tarnValid := setIns m.tarnValid (l / 512) }
  else
    let page := l / 4096
    if m.dramValid.contains page then m
    else if m.fills.any fun f => f.page == page then
      { m with fills := mapIf (fun f => f.page == page) (fun f => { f with mask := f.mask ||| 2 ^ (w % 32) }) m.fills }
    else { m with fills := m.fills ++ [⟨page, 2 ^ (w % 32)⟩] }

/-- A walker drops the look-aside entries whose list or pool entry a Tarn write touches (R257). -/
def kvWriteSnoop (loc n : Nat) (s : State) : State :=
  if !locIsTarn loc then s else
  let o := locOff loc
  let hit := fun e => decide (o < e + 8) && decide (e < o + n)
  let dc := locDc loc
  if (getClu s dc).kvw.tlb.any fun e => hit e.lent || hit e.pent then
    updClu s dc fun k => { k with kvw := { k.kvw with tlb := k.kvw.tlb.filter fun e => !(hit e.lent || hit e.pent) } }
  else s

/-- The bytes of one word written, the word's errors gone with the check symbols computed anew (R180, R186), but for its stuck cells (R208). -/
def putWord (loc : Nat) (data : List (Option Byte)) (s : State) : State :=
  let w := loc / 128
  -- a first write of a Tarn granule writes all of it
  let ws := if locIsTarn loc && !s.mem.tarnValid.contains (loc / 512) then (List.range 4).map (loc / 512 * 4 + ·) else [w]
  kvWriteSnoop loc data.length <| resettle ws <| updMem s fun m =>
    markWritten w { m with
      bytes := memMask m.bytes loc data
      flips := smapErase m.flips w
      poison := setDel m.poison w
      poisonSeen := setDel m.poisonSeen w
      writeBack := setDel m.writeBack w }

/-- A write within one 128-byte word (R180, R186, R266, R268): `whole` for a write of all 128 bytes in one bank step, which replaces
even a poisoned word; any other merges, and is refused at a word that delivers no data. Answers the word refused. -/
def storeWord (loc : Nat) (data : List (Option Byte)) (whole : Bool) (s : State) : State × Option Nat :=
  let w := loc / 128
  if (whole && decide (data.length = 128) && data.all (·.isSome)) || !wordValid s w then (putWord loc data s, none)
  else
    let r := readWord w 10 s
    if r.2 then (putWord loc data r.1, none) else (r.1, some (w * 128))

/-- A run of bytes cut at the 128-byte words it touches: (location, bytes). -/
def cutWords (loc : Nat) (data : List (Option Byte)) : List (Nat × List (Option Byte)) :=
  let lo := loc / 128
  let hi := (loc + data.length + 127) / 128
  (span lo hi).map fun w =>
    let a := max loc (w * 128)
    let b := min (loc + data.length) (w * 128 + 128)
    (a, (data.drop (a - loc)).take (b - a))

/-- A run of bytes written word by word, stopping at the first refusal. -/
def storeCuts (whole : Bool) : List (Nat × List (Option Byte)) → State → State × Option Nat
  | [], s => (s, none)
  | (a, d) :: cs, s =>
    let r := storeWord a d whole (fillWaitNow a s)
    match r.2 with
    | none => storeCuts whole cs r.1
    | some e => (r.1, some e)

/-- A run of bytes written to Tarn or DRAM: `whole` for a writer that writes whole words as one step (R268). -/
def memStore (loc : Nat) (data : List (Option Byte)) (whole : Bool) (s : State) : State × Option Nat :=
  if data.isEmpty then (s, none)
  else if railDead s loc then (s, some loc)
  else storeCuts whole (cutWords loc data) (countMem loc data.length s)

/-- The valid stores of a stack are cleared, its fill entries discarded and what its words held forgotten (R207, R211). -/
def clearStack (k : Nat) (s : State) : State :=
  let inK := fun (l : Nat) => dcDie (locDc l) == k
  -- the scrub restarts its pass (R270)
  let s := forEach (List.range 4) (fun s d => updMDie s k d fun x => { x with scrubAt := 0 })
    (updStk s k fun x => { x with tScrubAt := 0 })
  updMem s fun m => { m with
    bytes := m.bytes.filter fun e => !inK e.1
    tarnValid := m.tarnValid.filter fun g => !inK (g * 512)
    dramValid := m.dramValid.filter fun p => !inK (p * 4096)
    fills := m.fills.filter fun f => !inK (f.page * 4096)
    flips := smapKeep (fun w => !inK (w * 128)) m.flips
    poison := m.poison.filter fun w => !inK (w * 128)
    poisonSeen := m.poisonSeen.filter fun w => !inK (w * 128)
    writeBack := m.writeBack.filter fun w => !inK (w * 128) }

/-- Symbol errors struck into a word, as a physical upset or defect leaves them: (position 0 to 68, nonzero difference, whether those bits stick
from now on). In a word whose contents do not stand in its array an upset is never seen (R208), and stuck bits hold ones. -/
def strike (w : Nat) (errs : List (Nat × Nat × Bool)) (s : State) : State :=
  let es := errs.filter fun e => decide (e.1 < 69) && decide (0 < e.2.1 % 65536)
  let valid := wordValid s w
  let s1 := if valid then
      updMem s fun m =>
        let f := es.foldl (fun acc e => smapUpd 0 acc e.1 (fun d => d ^^^ (e.2.1 % 65536))) (smapGet [] m.flips w)
        { m with flips := smapSet [] m.flips w f }
    else s
  forEach (es.filter (·.2.2)) (fun s e =>
    let d := e.2.1 % 65536
    let now := if valid then memSymbol s w e.1 ^^^ smapGet 0 (smapGet [] s.mem.flips w) e.1 else d
    let old := (((smapGet [] s.stuckMem (memWordKey s w)).find? fun x => x.1 == e.1).map (·.2)).getD (0, 0)
    { s with stuckMem := smapUpd [] s.stuckMem (memWordKey s w) fun xs =>
        (xs.filter fun x => x.1 != e.1) ++ [(e.1, old.1 ||| d, (old.2 &&& (0xFFFF ^^^ d)) ||| (now &&& d))] }) s1

/-- The word of the valid store that covers a location fails (R206, R265): its 64 granules or pages read as written, the store logs it, and
what the newly covered words hold is nothing that was written, so that each decodes as a word in error (three symbols, R263). A page that
holds a fill entry is left to it. -/
def storeFail (l : Nat) (s : State) : State :=
  let n := if locIsTarn l then 512 else 4096
  let set := fun g => if locIsTarn l then s.mem.tarnValid.contains g else s.mem.dramValid.contains g || s.mem.fills.any fun f => f.page == g
  let gs := ((List.range 64).map (l / n / 64 * 64 + ·)).filter fun g => !set g
  let ws := gs.flatMap fun g => (List.range (n / 128)).map (g * (n / 128) + ·)
  putLog 0x0109 1 0xFF (mkResult [(0, 1, Config.storeWarning % 256), (2, 2, Config.storeWarning / 256), (4, 1, dcDie (locDc l)), (5, 1, 0xFF),
    (6, 1, 0xFF)]) <| updMem s fun m => { m with
      tarnValid := if locIsTarn l then gs.foldl setIns m.tarnValid else m.tarnValid
      dramValid := if locIsTarn l then m.dramValid else gs.foldl setIns m.dramValid
      flips := ws.foldl (fun f w => smapSet [] f w [(0, 1), (1, 1), (2, 1)]) m.flips }

/-! ### Scratchpads (R126, R136 to R140, R264) -/

/-- The half of a window offset, as `CLU_SPM_PWR` numbers its bits (R136). -/
def halfOf (off : Nat) : Nat :=
  if off < 0x2000 then 0 else if off < 0x4000 then 1 else if off < 0x5000 then 2 else if off < 0x6000 then 3
  else if off < 0x6800 then 4 else 5

/-- The window offsets of a half, from its first to one past its last (R136). -/
def halfRange (h : Nat) : Nat × Nat :=
  match h with
  | 0 => (0, 0x2000) | 1 => (0x2000, 0x4000) | 2 => (0x4000, 0x5000) | 3 => (0x5000, 0x6000)
  | 4 => (0x6000, 0x6800) | _ => (0x6800, 0x7000)

/-- Whether a window offset lies in a powered-down half. -/
def spmDown (s : State) (c off : Nat) : Bool := natBit (getClu s (lciDc c)).spmPwr (halfOf off)

/-- Whether any line of a set lies in a powered-down half. -/
def linesDown (s : State) (c : Nat) (lines : List Nat) : Bool := lines.any fun n => spmDown s c (n * 64)

/-- The group of a bit position of a scratchpad word (R264, R272). -/
def spmGroup (p : Nat) : Nat := if p < 64 then p % 4 else (p - 64) / 6

/-- The value that a cell of a scratchpad word holds for the word's eight bytes: a data bit or a check bit (R264). -/
def spmCell (bs : List Byte) (p : Nat) : Bool :=
  if p < 64 then (bs.getD (p / 8) 0).getLsbD (p % 8) else Config.spmCheckBit bs p

/-- The cells of a word that fail once eight bytes have been written to it: those stuck at another value (R139). -/
def stuckFlips (s : State) (c w : Nat) (bs : List Byte) : List Nat :=
  ((smapGet [] s.stuck (spmWordKey s c w)).filter fun x => spmCell bs x.1 != x.2).map (·.1)

/-- The flipped cells of words written or written back: those of their stuck cells alone (R139). -/
def restick (c : Nat) (ws : List Nat) (s : State) : State :=
  if s.stuck.isEmpty then s else
  updCore s c fun k => { k with spmFlips := ws.foldl (fun f w => smapSet [] f w (stuckFlips s c w (memBytes k.spm (w * 8) 8))) k.spmFlips }

/-- A cell struck in a scratchpad word, as a physical upset or defect leaves it: bit position 0 to 87. One that flips once is seen in a valid
line alone; one that sticks at a value fails at once there, where it holds another, and at every later write (R139, R264). -/
def spmStrike (c w p : Nat) (stick : Option Bool) (s : State) : State :=
  if 88 ≤ p then s else
  let valid := (getCore s c).lineValid.contains (w / 8) && coreLive s c
  match stick with
  | none => if valid then
      updCore s c fun k => { k with spmFlips := smapUpd [] k.spmFlips w fun ps => if ps.contains p then setDel ps p else setIns ps p }
    else s
  | some v =>
    let bad := valid && spmCell (memBytes (getCore s c).spm (w * 8) 8) p != v
    let s1 := { s with stuck := smapUpd [] s.stuck (spmWordKey s c w) fun xs => (xs.filter fun x => x.1 != p) ++ [(p, v)] }
    updCore s1 c fun k => { k with spmFlips := smapUpd [] k.spmFlips w fun ps => if bad then setIns ps p else setDel ps p }

/-- Whether a 64-bit word holds a byte of a range. -/
def inWords (off n w : Nat) : Bool := decide (0 < n ∧ off / 8 ≤ w ∧ w ≤ (off + n - 1) / 8)

/-- What the decoder makes of a scratchpad word with flipped cells (R264). -/
inductive SpmClass where
  | clean | corrected | uncorrectable
  /-- Three or more errors of a group go undetected in the groups `gs`; the positions that the decoder corrects in the word. -/
  | missed (gs : List Nat) (pos : List Nat)
  deriving DecidableEq, Repr

/-- The flipped cells of one group. -/
def groupFlips (ps : List Nat) (g : Nat) : List Nat := ps.filter fun p => spmGroup p == g
/-- The bit positions of a group, lowest first (R264, R272). -/
def groupCells (g : Nat) : List Nat := (List.range 16).map (fun i => 4 * i + g) ++ (List.range 6).map (fun i => 64 + 6 * g + i)

/-- The cell that the decoder changes in a group whose three or more errors went undetected, where it takes it for a corrected one (R264). -/
def missedCell (ps : List Nat) (g : Nat) : Option Nat :=
  let fs := groupFlips ps g
  if Config.spmCounted fs then some ((groupCells g).getD (Config.spmMisPos fs % 22) 0) else none

/-- The class of flipped cells: one error a group corrected, two detected, three or more free in that group (R264). -/
def spmClassify (ps : List Nat) : SpmClass :=
  let many := (List.range 4).filter fun g => decide (3 ≤ (groupFlips ps g).length)
  if (List.range 4).any fun g => (groupFlips ps g).length == 2 then .uncorrectable
  else if many.any fun g => Config.spmDetected (groupFlips ps g) then .uncorrectable
  else if !many.isEmpty then
    .missed many <| ((List.range 4).flatMap fun g =>
      if many.contains g then (missedCell ps g).toList else groupFlips ps g).foldl setIns []
  else if ps.isEmpty then .clean else .corrected

/-- The data that the decoder delivers for a word in which the errors of some groups went undetected (R264): those groups' bits as stored, but for the
cell that each changes, and every other bit corrected. -/
def missedBytes (bs : List Byte) (ps gs : List Nat) : List Byte :=
  (List.range 8).map fun i =>
    BitVec.ofNat 8 ((List.range 8).foldl (fun a b =>
      let p := 8 * i + b
      let wrong := gs.contains (p % 4) && (ps.contains p != (missedCell ps (p % 4) == some p))
      a + bit ((bs.getD i 0).getLsbD b != wrong) * 2 ^ b) 0)

/-- The corrected or uncorrectable read of a scratchpad word is counted, logged and its repair asked for (R266, R269, R271, R276); `NSYM` is the
number of groups corrected (R272). A corrected word is written back, where its stuck cells fail again (R139). -/
def spmReadWord (c w rq : Nat) (s : State) : State × Bool :=
  let ps := smapGet [] (getCore s c).spmFlips w
  let stk := dcDie (lciDc c)
  let addr := spmPa c (w * 8)
  let counted := fun (pos : List Nat) (s : State) =>
    let s1 := updStk s stk fun k => { k with ceSpm := k.ceSpm + 1 }
    let s2 := logCorrected stk addr 2 0 pos.length (pos.getD 0 0) (pos.getD 1 0x7F) s1
    let s3 := updCore s2 c fun k => { k with spmCorr := smapUpd 0 k.spmCorr w (· + 1) }
    if 8 ≤ smapGet 0 (getCore s3 c).spmCorr w then repairCoreCol c s3 else s3
  let back := fun (s : State) => restick c [w] (updCore s c fun k => { k with spmFlips := smapErase k.spmFlips w })
  match spmClassify ps with
  | .clean => (s, true)
  | .corrected => (back (counted ps s), true)
  | .uncorrectable =>
    let s1 := updStk s stk fun k => { k with ueSpm := k.ueSpm + 1 }
    (repairCoreCol c (memErrorEvent addr 2 0 0 rq stk 2 s1), false)
  | .missed gs pos =>
    let s := if pos.isEmpty then s else counted pos s
    -- the data that the decoder delivers take the word's place
    (back (updCore s c fun k => { k with spm := memPuts k.spm (w * 8) (missedBytes (memBytes k.spm (w * 8) 8) ps gs) }), true)

/-- Scratchpad words read in order, stopping at the first uncorrectable one. -/
def spmReadWords (c rq : Nat) : List Nat → State → State × Option Nat
  | [], s => (s, none)
  | w :: ws, s =>
    let r := spmReadWord c w rq s
    if r.2 then spmReadWords c rq ws r.1 else (r.1, some (spmPa c (w * 8)))

/-- The words with flipped cells among those that hold a byte of the ranges (R264). -/
def spmBadIn (k : Core) (rs : List (Nat × Nat)) : List Nat :=
  (k.spmFlips.map (·.1)).filter fun w => rs.any fun r => inWords r.1 r.2 w

/-- Byte ranges of the window read by requester class `rq`: what the decoder reports of their words, and the address of an
uncorrectable one (R269). -/
def spmScan (c rq : Nat) (rs : List (Nat × Nat)) (s : State) : State × Option Nat :=
  spmReadWords c rq (spmBadIn (getCore s c) rs) s

/-- `n` bytes of a core's window: zeros in a powered-down half and in an invalid line (R138, R139). -/
def spmBytes (s : State) (c off n : Nat) : List Byte :=
  let m := (getCore s c).spm
  let p := (getClu s (lciDc c)).spmPwr
  (List.range n).map fun i => if natBit p (halfOf (off + i)) then 0 else memByte m (off + i)

/-- The 64-byte lines of a byte range. -/
def linesOf (off n : Nat) : List Nat := if n = 0 then [] else span (off / 64) ((off + n - 1) / 64 + 1)

/-- The words that a write of a byte range covers only in part. -/
def partWords (off : Nat) (data : List (Option Byte)) : List Nat :=
  (span (off / 8) ((off + data.length + 7) / 8)).filter fun w =>
    !((List.range 8).all fun i =>
      decide (off ≤ w * 8 + i) && ((data.getD (w * 8 + i - off) none).isSome))

/-- Bytes written into a core's window (R139): the lines become valid, a line that was not being written in whole, and the stuck cells of the words
written fail again. A write of part of an uncorrectable word is refused (R268): the answer is that word's address. -/
def spmWrite (c off : Nat) (data : List (Option Byte)) (s : State) : State × Option Nat :=
  if data.all (·.isNone) then (s, none) else
  let k := getCore s c
  let touched := span (off / 8) ((off + data.length + 7) / 8)
  let bad := (k.spmFlips.map (·.1)).filter fun w => touched.contains w
  let part := bad.filter fun w => (partWords off data).contains w
  let r := spmReadWords c 10 part s
  match r.2 with
  | some e => (r.1, some e)
  | none =>
    let fresh := (linesOf off data.length).filter fun n => !k.lineValid.contains n
    (restick c (touched ++ fresh.flatMap fun n => (List.range 8).map (8 * n + ·)) <| updCore r.1 c fun k => { k with
      spm := memMask k.spm off data
      lineValid := (linesOf off data.length).foldl setIns k.lineValid
      spmFlips := k.spmFlips.filter fun e => !touched.contains e.1 }, none)

/-- Bytes written with no mask. -/
def spmPut (c off : Nat) (data : List Byte) (s : State) : State × Option Nat := spmWrite c off (data.map some) s

/-- The valid bits and contents of a half are cleared (R139). -/
def halfClear (h : Nat) (k : Core) : Core :=
  let r := halfRange h
  { k with
    spm := memClear k.spm r.1 r.2
    lineValid := k.lineValid.filter fun n => !(decide (r.1 ≤ n * 64) && decide (n * 64 < r.2))
    spmFlips := k.spmFlips.filter fun e => !(decide (r.1 ≤ e.1 * 8) && decide (e.1 * 8 < r.2)) }

end Sys2Proof.Machine
end

