-- ==== Sys2Proof/Machine/Translate.lean ====
section
/-! DEFINITION. Partition-virtual translation: the table walk, the look-aside buffers and the KV walker (R193 to R198, R252 to R257). -/

namespace Sys2Proof.Machine

/-- How a translation ends. -/
inductive XlEnd where
  | ok (t : Tlb)
  /-- No valid translation (R195). -/
  | fault
  /-- A walk met a word in error, at this device physical address (R269). -/
  | busError (addr : Nat)
  deriving DecidableEq, Repr

/-- The translation unit with a name (R193). -/
def getX (s : State) : UnitName → XUnit
  | .cluster dc => (getClu s dc).xlat
  | .leadIo => s.xlead
  | .portDie k => smapGet {} s.xport k

/-- The state with one translation unit changed. -/
def updX (s : State) (u : UnitName) (f : XUnit → XUnit) : State :=
  match u with
  | .cluster dc => updClu s dc fun k => { k with xlat := f k.xlat }
  | .leadIo => { s with xlead := f s.xlead }
  | .portDie k => { s with xport := smapUpd {} s.xport k f }

/-- The translation root that a unit uses for a partition: enabled, and the L0 table's address (R193, R195). -/
def xRoot (s : State) (u : UnitName) (part : Nat) : Bool × Nat :=
  match u with
  | .cluster dc => ((getClu s dc).xlatEn, (getClu s dc).xlatBase)
  | _ => ((getPart s part).rootEn, (getPart s part).root)

/-- Whether a range of physical addresses lies in the DRAM and Tarn of a partition's stacks (R195). -/
def paInPart (s : State) (part a n : Nat) : Bool :=
  match paDecode s a, paDecode s (a + n - 1) with
  | .mem l, .mem l' => locInPart s part l && locInPart s part l'
  | _, _ => false

/-- The location of a physical address, where it names memory. -/
def paLoc (s : State) (a : Nat) : Option Nat :=
  match paDecode s a with
  | .mem l => some l
  | _ => none

/-- The fields of a table entry (R194). -/
def entV (e : Nat) : Bool := natBit e 0
def entLeaf (e : Nat) : Bool := natBit e 1
def entW (e : Nat) : Bool := natBit e 2
def entSpr (e : Nat) : Bool := natBit e 3
def entExt (e : Nat) : Bool := natBit e 4
def entPa (e : Nat) : Nat := natBits e 47 8 * 256

/-- Whether an entry is valid apart from its level (R195). -/
def entOk (e : Nat) : Bool :=
  entV e && natBits e 7 5 == 0 && natBits e 63 48 == 0 && !(entSpr e && entExt e)

/-- The index that a level takes from an address (R194). -/
def levelIndex (level va : Nat) : Nat :=
  match level with
  | 0 => natBits va 47 39 | 1 => natBits va 38 30 | 2 => natBits va 29 21 | _ => natBits va 20 16

/-- The size of the table of a level. -/
def levelTable (level : Nat) : Nat := if level = 3 then 256 else 4096

/-- The page size of a leaf at a level. -/
def levelPage (level : Nat) : Nat := if level = 3 then 0x1_0000 else 0x20_0000

/-- An access of a requester that finds its bank held by a spring step waits for the step's end (R225); one that does not has ceased to wait. -/
def waitBank (l : Nat) (src : Endpoint) (s : State) : State :=
  if bankHeld s l then block (.bank l src) s else updMem s fun m => { m with waits := m.waits.filter (· != (l, src)) }

/-- The fabric endpoint of a translation unit; DEDUCED: a cluster's walks leave by its control port, for they are none of its cores'. -/
def unitEp : UnitName → Endpoint
  | .cluster dc => .ctrl dc
  | .leadIo => .leadIo
  | .portDie k => .link (2 * k)

/-- An entry read by a unit through the column memory port of its table (R196): the entry, or the address of the failure. -/
def walkRead (u : UnitName) (pa l : Nat) (s : State) : State × Option Nat × Nat :=
  let x := overFabric .readReq (unitEp u) (.column (locDc l)) .readResp pa 8 (fun s =>
    let r := memLoad l 8 3 (waitBank l (unitEp u) s)
    match r.2.1 with
    | none => (r.1, .commit, 0)
    | some e => (r.1, .busError, locPa r.1 e)) s
  if x.2.1 = .commit then (x.1, none, leNat (memBytes x.1.mem.bytes l 8)) else (x.1, some x.2.2, 0)

/-- The walk from a level on, with the levels left as fuel (R194, R195). -/
def walkFrom (u : UnitName) (part va : Nat) : Nat → Nat → Nat → State → State × XlEnd
  | 0, _, _, s => (s, .fault)
  | fuel + 1, level, table, s =>
    if table % levelTable level ≠ 0 ∨ !paInPart s part table (levelTable level) then (s, .fault) else
    match paLoc s (table + 8 * levelIndex level va) with
    | none => (s, .fault)
    | some l =>
      let r := walkRead u (table + 8 * levelIndex level va) l s
      match r.2.1 with
      | some e => (r.1, .busError e)
      | none =>
        let e := r.2.2
        if !entOk e then (r.1, .fault)
        else if entLeaf e then
          if level < 2 ∨ entPa e % levelPage level ≠ 0 ∨ !paInPart r.1 part (entPa e) (levelPage level) then (r.1, .fault)
          else (r.1, .ok { part := part, va := va / levelPage level * levelPage level, size := levelPage level, pa := entPa e, w := entW e, spr := entSpr e, ext := entExt e })
        else if level = 3 then (r.1, .fault)
        else walkFrom u part va fuel (level + 1) (entPa e) r.1

/-- A whole walk (R194): counted, for a cluster's unit, in `CLU_XLAT_WALKS`. -/
def walkTables (u : UnitName) (part va : Nat) (s : State) : State × XlEnd :=
  let s := match u with
    | .cluster dc => updClu s dc fun k => { k with xlatWalks := k.xlatWalks + 1 }
    | _ => s
  walkFrom u part va 4 0 (xRoot s u part).2 s

/-- The held translation of an address. -/
def tlbFind (x : XUnit) (part va : Nat) : Option Tlb :=
  x.tlb.find? fun t => t.part == part && decide (t.va ≤ va) && decide (va < t.va + t.size)

/-- A translation put first, the least recently used one leaving a full buffer of 512 (R196). -/
def tlbPut (t : Tlb) (x : XUnit) : XUnit :=
  { x with tlb := (t :: x.tlb.filter fun u => !(u.part == t.part && u.va == t.va && u.size == t.size)).take 512 }

/-- The physical address under a translation. -/
def Tlb.at (t : Tlb) (va : Nat) : Nat := t.pa + (va - t.va)

/-! ### The KV walker (R252 to R257) -/

/-- Whether a walker is fitted (R252). -/
def kvFitted (s : State) : Bool := decide (s.mdies < 4)

/-- Whether the walker alone translates an address (R253). -/
def kvOwns (s : State) (dc va : Nat) : Bool :=
  let k := (getClu s dc).kvw
  kvFitted s && k.en && natBits va 47 40 == k.wbase

/-- The held KV translation of a list and page. -/
def kvFind (k : Kvw) (list page : Nat) : Option KvTlb := k.tlb.find? fun e => e.list == list && e.page == page

/-- A KV translation as a translation of its page. -/
def kvAsTlb (part va : Nat) (e : KvTlb) : Tlb :=
  { part := part, va := va / 0x1_0000 * 0x1_0000, size := 0x1_0000, pa := e.pa, w := e.w, spr := e.spr, ext := false }

/-- A walk of the list table and the pool (R254, R255, R256). -/
def kvWalk (dc part va : Nat) (s : State) : State × XlEnd :=
  let k := (getClu s dc).kvw
  let list := natBits va 39 28
  let page := natBits va 27 16
  let lo := k.loff * 4096 + 8 * list
  let slice := 48 * mib
  let s := updClu s dc fun k => { k with kvw := { k.kvw with walks := k.kvw.walks + 1 } }
  if slice < k.loff * 4096 + 32768 ∨ slice < k.poff * 4096 + 8 * k.psize then (s, .fault) else
  let r := memLoad (tarnLoc dc lo) 8 3 s
  match r.2.1 with
  | some e => (r.1, .busError (locPa r.1 e))
  | none =>
    let le := leNat r.2.2
    let first := natBits le 29 16
    let count := natBits le 44 32
    if !natBit le 0 ∨ natBits le 15 2 ≠ 0 ∨ natBits le 31 30 ≠ 0 ∨ natBits le 63 45 ≠ 0 ∨ count ≤ page ∨ k.psize < first + count
    then (r.1, .fault) else
    let po := k.poff * 4096 + 8 * (first + page)
    let r2 := memLoad (tarnLoc dc po) 8 3 r.1
    match r2.2.1 with
    | some e => (r2.1, .busError (locPa r2.1 e))
    | none =>
      let pe := leNat r2.2.2
      let pa := natBits pe 47 16 * 65536
      let inCol := fun a => match paLoc r2.1 a with
        | some l => locDc l == dc && locColumnLocal r2.1 l
        | none => false
      if !natBit pe 0 ∨ natBits pe 15 2 ≠ 0 ∨ natBits pe 63 48 ≠ 0 ∨ !(inCol pa && inCol (pa + 65535)) then (r2.1, .fault)
      else
        let e : KvTlb := { list := list, page := page, pa := pa, w := natBit le 1, spr := natBit pe 1, lent := lo, pent := po }
        (updClu r2.1 dc fun k => { k with kvw := { k.kvw with
          tlb := (e :: k.kvw.tlb.filter fun x => !(x.list == list && x.page == page)).take 32 } }, .ok (kvAsTlb part va e))

/-! ### One access -/

/-- What the look-aside buffer answers. -/
inductive XlLook where
  | hit (t : Tlb)
  /-- A walk is needed; `kv` when the KV walker does it. -/
  | miss (kv : Bool)
  /-- Translation is off, or no partition holds the requester: PAGE_FAULT (R195). -/
  | off
  deriving DecidableEq, Repr

/-- A look-up (R195, R196, R253, R256): a hit becomes the most recently used. -/
def xlLook (u : UnitName) (part : Option Nat) (va : Nat) (s : State) : State × XlLook :=
  match part with
  | none => (s, .off)
  | some q =>
    if !(xRoot s u q).1 then (s, .off) else
    let general : State × XlLook :=
      match tlbFind (getX s u) q va with
        | some t => (updX s u (tlbPut t), .hit t)
        | none => (s, .miss false)
    match u with
    | .cluster dc =>
      if kvOwns s dc va then
        match kvFind (getClu s dc).kvw (natBits va 39 28) (natBits va 27 16) with
        | some e =>
          (updClu s dc fun k => { k with kvw := { k.kvw with
            hits := k.kvw.hits + 1
            tlb := e :: k.kvw.tlb.filter fun x => x != e } }, .hit (kvAsTlb q va e))
        | none => (s, .miss true)
      else general
    | _ => general

/-- A walk done and its translation held (R196, R256); with translation switched off in the meantime it ends in a PAGE_FAULT (R195). -/
def xlWalk (u : UnitName) (part va : Nat) (kv : Bool) (s : State) : State × XlEnd :=
  if !(xRoot s u part).1 then (s, .fault) else
  match u, kv with
  | .cluster dc, true => kvWalk dc part va s
  | _, _ =>
    let r := walkTables u part va s
    match r.2 with
    | .ok t => (updX r.1 u (tlbPut t), .ok t)
    | e => (r.1, e)

/-- A translation by a requester that waits for its walk within its own event: a hit, or the walk done at once. -/
def xlNow (u : UnitName) (part : Option Nat) (va : Nat) (s : State) : State × XlEnd :=
  let r := xlLook u part va s
  match r.2 with
  | .hit t => (r.1, .ok t)
  | .off => (r.1, .fault)
  | .miss kv => xlWalk u (part.getD 0) va kv r.1

/-- A range of virtual addresses cut at 64 KiB: (address, bytes). -/
def cutPages (va n : Nat) : List (Nat × Nat) :=
  if n = 0 then [] else
  (span (va / 0x1_0000) ((va + n - 1) / 0x1_0000 + 1)).map fun p =>
    let a := max va (p * 0x1_0000)
    (a, min (va + n) (p * 0x1_0000 + 0x1_0000) - a)

/-- How the translation of a whole range ends: its pieces (physical address, bytes), or the code and address of the first failure. -/
inductive RangeEnd where
  | ok (ps : List (Nat × Nat))
  | bad (code addr : Nat)
  deriving DecidableEq, Repr

/-- The pages of a range translated in order. `outside` for the host and neighbours, whom R195 and R217 keep from pages without EXT
and from spring pages; `wr` for a write. -/
def xlRange (u : UnitName) (part : Option Nat) (wr outside : Bool) : List (Nat × Nat) → State → State × RangeEnd
  | [], s => (s, .ok [])
  | (va, n) :: rest, s =>
    let r := xlNow u part va s
    match r.2 with
    | .fault => (r.1, .bad fcPageFault va)
    | .busError a => (r.1, .bad fcBusError a)
    | .ok t =>
      if (wr && !t.w) || (outside && (t.spr || !t.ext)) then (r.1, .bad fcPermission va)
      else
        let r2 := xlRange u part wr outside rest r.1
        match r2.2 with
        | .ok ps => (r2.1, .ok ((t.at va, n) :: ps))
        | e => (r2.1, e)

/-- Memory read at physical pieces in order, for requester class `rq`: the bytes, or the word in error. -/
def loadPieces (rq : Nat) : List (Nat × Nat) → State → State × Option Nat × List Byte
  | [], s => (s, none, [])
  | (pa, n) :: ps, s =>
    match paLoc s pa with
    | none => (s, some pa, [])
    | some _ =>
      -- a 4 KiB granule of the interleaved part at a time
      let cuts := (span (pa / 4096) ((pa + n - 1) / 4096 + 1)).map fun g =>
        let a := max pa (g * 4096)
        (a, min (pa + n) (g * 4096 + 4096) - a)
      let r := cuts.foldl (fun (acc : State × Option Nat × List Byte) c =>
        match acc.2.1 with
        | some _ => acc
        | none =>
          match paLoc acc.1 c.1 with
          | none => (acc.1, some c.1, acc.2.2)
          | some l =>
            let x := memLoad l c.2 rq (if rq = 5 then acc.1 else waitBank l (.ctrl (locDc l)) acc.1)
            (x.1, x.2.1.map (locPa x.1), acc.2.2 ++ x.2.2)) (s, none, [])
      match r.2.1 with
      | some e => (r.1, some e, r.2.2)
      | none =>
        let r2 := loadPieces rq ps r.1
        (r2.1, r2.2.1, r.2.2 ++ r2.2.2)

/-- Memory written at physical pieces in order; the answer is the word refused. -/
def storePieces (whole : Bool) : List (Nat × Nat) → List (Option Byte) → State → State × Option Nat
  | [], _, s => (s, none)
  | (pa, n) :: ps, data, s =>
    let cuts := if n = 0 then [] else (span (pa / 4096) ((pa + n - 1) / 4096 + 1)).map fun g =>
      let a := max pa (g * 4096)
      (a, min (pa + n) (g * 4096 + 4096) - a)
    let r := cuts.foldl (fun (acc : State × Option Nat) c =>
      match acc.2 with
      | some _ => acc
      | none =>
        match paLoc acc.1 c.1 with
        | none => (acc.1, some c.1)
        | some l =>
          let x := memStore l ((data.drop (c.1 - pa)).take c.2) whole (waitBank l (.ctrl (locDc l)) acc.1)
          (x.1, x.2.map (locPa x.1))) (s, none)
    match r.2 with
    | some e => (r.1, some e)
    | none => storePieces whole ps (data.drop n) r.1

/-! ### Invalidation (R195, R197, R198) -/

/-- The translations that an invalidation removes: all, or those whose page contains an address. -/
def invalidate (what : Option Nat) (part : Option Nat) (x : XUnit) : XUnit :=
  { x with tlb := x.tlb.filter fun t =>
      (match part with | some q => t.part != q | none => false) ||
      (match what with | none => false | some va => !(decide (t.va ≤ va) && decide (va < t.va + t.size))) }

/-- Whether an invalidation covers a 64 KiB page, which a 2 MiB leaf translates where `big`. -/
def invCovers (what : Option Nat) (pg : Nat) (big : Bool) : Bool :=
  match what with
  | none => true
  | some va => va / 0x1_0000 == pg || (big && va / 0x20_0000 == pg / 32)

/-- Whether a macro-op holds a translation that an invalidation covers; the KV walker's are none of the unit's (R253). -/
def opUses (what : Option Nat) (p : MOp) : Bool := p.xl.any fun e => !p.kvs.contains e.1 && invCovers what e.1 (p.big.contains e.1)

/-- The macro-ops of a cluster that hold a translation which an invalidation covers (R198). -/
def invOps (s : State) (dc : Nat) (what : Option Nat) : List (Nat × Nat) :=
  (cluCores s dc).flatMap fun c => ((getCore s c).ops.filter (opUses what)).map fun p => (c, p.id)

/-- The packets of a cluster's core ports in flight that used one (R198), those of a core that has been reset among them (R414). -/
def invPids (s : State) (dc : Nat) (what : Option Nat) : List Nat :=
  (s.net.pkts.filter fun p =>
    (match p.src with | .core c => lciDc c == dc | _ => false) &&
    match p.page with | some g => invCovers what g.1 g.2 | none => false).map (·.id)

/-- The oldest invalidation of a unit removes its translations; the accesses that used them are noted (R198). -/
def startInv (u : UnitName) (s : State) : State :=
  updX s u fun x =>
    match x.inv with
    | [] => x
    | i :: is =>
      let j := match u with
        | .cluster dc => { i with ops := invOps s dc i.what, pids := invPids s dc i.what }
        | _ => i
      invalidate i.what i.part { x with inv := j :: is }

/-- An invalidation taken: it removes its translations, unless it is queued behind one that is not yet complete (R198). -/
def queueInv (u : UnitName) (what : Option Nat) (part ap : Option Nat) (s : State) : State :=
  let s1 := updX s u fun x => { x with inv := x.inv ++ [⟨what, part, ap, [], []⟩] }
  if (getX s u).inv.isEmpty then startInv u s1 else s1

/-- The oldest invalidation of a unit completes, and the one queued behind it removes its translations (R198). -/
def nextInv (u : UnitName) (s : State) : State := startInv u (updX s u fun x => { x with inv := x.inv.drop 1 })

end Sys2Proof.Machine
end

