-- ==== Sys2Proof/Machine/Operands.lean ====
section
/-! DEFINITION. Operand forms: the fields of a macro-op (R102), descriptors and regions (R99, R100), the checks of dispatch in
the order of R101, and the local lines and Tarn words a macro-op touches (R105, R106). -/

namespace Sys2Proof.Machine

/-! ### The macro-op word (R102) -/

def mwOp (w : W64) : Nat := natBits w.toNat 63 56
def mwPg (w : W64) : Bool := natBit w.toNat 55
def mwDa (w : W64) : Nat := natBits w.toNat 54 50
def mwDb (w : W64) : Nat := natBits w.toNat 49 45
def mwDc (w : W64) : Nat := natBits w.toNat 44 40
def mwSub (w : W64) : Nat := natBits w.toNat 39 32
def mwImm (w : W64) : Nat := natBits w.toNat 31 0
/-- COUNT of LPB. -/
def mwCount (w : W64) : Nat := natBits w.toNat 54 40

/-- The opcodes (R108). -/
def ocNop : Nat := 0x00
def ocEnd : Nat := 0x01
def ocLpb : Nat := 0x02
def ocLpe : Nat := 0x03
def ocPrd : Nat := 0x04
def ocTrp : Nat := 0x07
def ocOpa : Nat := 0x10
def ocAcz : Nat := 0x11
def ocAcs : Nat := 0x12
def ocAcd : Nat := 0x13
def ocQnt : Nat := 0x18
def ocScl : Nat := 0x1C
def ocVop : Nat := 0x20
def ocVred : Nat := 0x21
def ocAsm : Nat := 0x28
def ocRst : Nat := 0x29
def ocRld : Nat := 0x2A
def ocVld : Nat := 0x30
def ocVst : Nat := 0x31
def ocFil : Nat := 0x32
def ocCpy : Nat := 0x33
def ocPut : Nat := 0x38
def ocRput : Nat := 0x39
def ocGet : Nat := 0x3A
def ocWop : Nat := 0x40
def ocWcl : Nat := 0x41
def ocBar : Nat := 0x48
def ocSig : Nat := 0x49
def ocWfl : Nat := 0x4A
def ocSpq : Nat := 0x50

/-- The opcodes the table defines (R108). -/
def definedOps : List Nat :=
  [0x00, 0x01, 0x02, 0x03, 0x04, 0x07, 0x10, 0x11, 0x12, 0x13, 0x18, 0x1C, 0x20, 0x21, 0x28, 0x29, 0x2A, 0x30, 0x31, 0x32,
   0x33, 0x38, 0x39, 0x3A, 0x40, 0x41, 0x48, 0x49, 0x4A, 0x50]

/-- Whether a macro-op ignores PG (R103): LPB, LPE, END, BAR and VLD in broadcast form. -/
def ignoresPg (w : W64) : Bool :=
  [ocLpb, ocLpe, ocEnd, ocBar].contains (mwOp w) || (mwOp w == ocVld && natBit (mwSub w) 1)

/-! ### Formats (R99, R60) -/

def fmRaw : Nat := 0
def fmSb4 : Nat := 1
def fmInt4 : Nat := 2
def fmT2 : Nat := 3
def fmMx4 : Nat := 4
def fmMx8e4 : Nat := 5
def fmMx8e5 : Nat := 6
def fmBf16 : Nat := 7
def fmFp32 : Nat := 8

/-- A block format (R55). -/
def isBlock (f : Nat) : Bool := decide (1 ≤ f) && decide (f ≤ 6)
/-- MXFP8 with either element format. -/
def isMx8 (f : Nat) : Bool := f == 5 || f == 6
/-- FP32 or BF16. -/
def isFloat (f : Nat) : Bool := f == 7 || f == 8
/-- Bytes of a block group (R60). -/
def groupBytes (f : Nat) : Nat := if f = 3 then 80 else if isMx8 f then 272 else 144
/-- Bytes of an element of an unblocked format. -/
def elemBytes (f : Nat) : Nat := if f = 8 then 4 else if f = 7 then 2 else 1
/-- Bytes of a row (R100). -/
def rowBytes (f ext0 : Nat) : Nat := if isBlock f then ceilDiv ext0 256 * groupBytes f else ext0 * elemBytes f

/-! ### Descriptors and regions (R99, R100) -/

/-- The signed value of a base register (R97). -/
def aregVal (k : Core) (i : Nat) : Int := signedBits (smapGet 0 k.areg i).toNat 48

/-- The region that descriptor `d` names now: the effective base adds the base register and the loop advance (R100). -/
def coreRegion (k : Core) (d : Nat) : Region :=
  let x := (smapGet 0 k.desc d).toNat
  let e0 := natBits x 113 100
  let e1 := natBits x 121 114
  { space := natBits x 50 48
    base := (natBits x 47 0 : Int) + (if natBit x 51 then aregVal k (natBits x 55 52) else 0) + smapGet 0 k.adv d
    fmt := natBits x 59 56
    stride0 := 16 * signedBits (natBits x 81 64) 18
    stride1 := 16 * signedBits (natBits x 99 82) 18
    ext0 := if e0 = 0 then 16384 else e0
    ext1 := if e1 = 0 then 256 else e1
    sidx := natBits x 127 122 }

/-- `AEN` of descriptor `d`. -/
def descAen (k : Core) (d : Nat) : Bool := natBit (smapGet 0 k.desc d).toNat 51

/-- Bytes of one row of a region. -/
def Region.rowB (r : Region) : Nat := rowBytes r.fmt r.ext0
/-- Bytes of a region (R115). -/
def Region.bytes (r : Region) : Nat := r.ext1 * r.rowB
/-- Elements of a region. -/
def Region.elems (r : Region) : Nat := r.ext0 * r.ext1
/-- The first byte of row `i` (R100). -/
def Region.row (r : Region) (i : Nat) : Int := r.base + r.stride0 * i
/-- The lowest address of a region. -/
def Region.lo (r : Region) : Int := min r.base (r.row (r.ext1 - 1))
/-- One past the highest address of a region. -/
def Region.hi (r : Region) : Int := max r.base (r.row (r.ext1 - 1)) + r.rowB
/-- Whether a region is in a local scratchpad. -/
def Region.isLocal (r : Region) : Bool := decide (r.space < 3)

/-- Bytes of a scratchpad (R126). -/
def spaceSize (sp : Nat) : Int := match sp with | 0 => 0x4000 | 1 => 0x2000 | _ => 0x1000
/-- The window offset of a scratchpad's first byte (R126). -/
def spaceBase (sp : Nat) : Nat := match sp with | 0 => 0 | 1 => 0x4000 | _ => 0x6000

/-- Runs of bytes: (address, bytes). -/
abbrev Runs := List (Int × Nat)

/-- The rows of a region as runs. -/
def Region.runs (r : Region) : Runs := (List.range r.ext1).map fun i => (r.row i, r.rowB)
/-- The first `n` bytes of runs, in order. -/
def takeRuns : Nat → Runs → Runs
  | 0, _ => []
  | _, [] => []
  | n, (a, k) :: rs => if n ≤ k then [(a, n)] else (a, k) :: takeRuns (n - k) rs

/-- The window offsets of local runs of a scratchpad. -/
def winRuns (sp : Nat) (rs : Runs) : List (Nat × Nat) := rs.map fun r => (spaceBase sp + r.1.toNat, r.2)

/-- Whether runs lie within a scratchpad. -/
def runsInside (sp : Nat) (rs : Runs) : Bool :=
  rs.all fun r => decide (0 ≤ r.1) && decide (r.1 + r.2 ≤ spaceSize sp)

/-- The lines of local runs, by window line. -/
def runLines (sp : Nat) (rs : Runs) : List Nat :=
  (winRuns sp rs).foldl (fun acc r => (linesOf r.1 r.2).foldl setIns acc) []

/-- The bytes of local runs, in order. -/
def runBytes (s : State) (c sp : Nat) (rs : Runs) : List Byte :=
  (winRuns sp rs).flatMap fun r => spmBytes s c r.1 r.2

/-- Bytes written over local runs, in order; the answer is the address of a word that refuses the write. -/
def writeRuns (c : Nat) : List (Nat × Nat) → List Byte → State → State × Option Nat
  | [], _, s => (s, none)
  | (o, n) :: rs, bs, s =>
    let r := spmPut c o (bs.take n) s
    match r.2 with
    | none => writeRuns c rs (bs.drop n) r.1
    | some e => (r.1, some e)

/-! ### Checks at dispatch (R101) -/

/-- The first refusal that applies. -/
def firstOf : List (Bool × Nat) → Option Nat
  | [] => none
  | (b, c) :: xs => if b then some c else firstOf xs

/-- DESC_INVALID of any descriptor (R101). -/
def badDesc (r : Region) : Bool :=
  decide (4 < r.space) || decide (8 < r.fmt) || (isBlock r.fmt && decide (r.base.emod 16 ≠ 0)) ||
    (r.fmt == fmBf16 && decide (r.base.emod 2 ≠ 0)) || (r.fmt == fmFp32 && decide (r.base.emod 4 ≠ 0))

/-- EXTENT of any block-format descriptor (R101, R47). -/
def badBlockExt (r : Region) : Bool := isBlock r.fmt && decide (r.ext0 % 32 ≠ 0)

/-- The cores whose windows an address range of package scratchpad space meets (R99). -/
def pkgCores (a : Int) (n : Nat) : List Nat :=
  if n = 0 then [] else span (a.toNat / 32768) ((a.toNat + n - 1) / 32768 + 1)

/-- ADDRESS of a region in package scratchpad space (R101): below 0, a bit of [47:36] set, or a core outside the partition. -/
def badPkg (s : State) (part : Option Nat) (r : Region) : Bool :=
  decide (r.lo < 0) || decide (2 ^ 36 < r.hi) ||
    r.runs.any fun x => (pkgCores x.1 x.2).any fun c => !lciOk c || lciPart s c != part || part.isNone

/-- ADDRESS of runs of a local scratchpad. -/
def badLocal (r : Region) (rs : Runs) : Bool := !r.isLocal || !runsInside r.space rs

/-- ADDRESS of a partition-virtual region: an address below 0 or above 2⁴⁸ − 1 (R101). -/
def badVirt (r : Region) : Bool := decide (r.lo < 0) || decide (2 ^ 48 < r.hi)

/-- ADDRESS of the side of a transfer that may be remote: local sides are refused here (R115). -/
def badRemote (s : State) (part : Option Nat) (r : Region) : Bool :=
  if r.space = 3 then badPkg s part r else if r.space = 4 then badVirt r else true

/-- A remote write that names an offset at or above 0x7000 (R101). -/
def namesPage (r : Region) : Bool := r.space == 3 && r.runs.any fun x => decide (0x7000 < x.1.toNat % 32768 + x.2)

/-- The PSP offsets of a 1 KiB half or drained tile. -/
def tileRuns (r : Region) : Runs := [(r.base, 1024)]
/-- A statistics region (R113). -/
def statRuns (r : Region) : Runs := [(r.base, 128)]

/-- ADDRESS of a statistics region: of the region that its descriptor names (R101) and of the 128 bytes used (R113). -/
def badStats (r : Region) : Bool := badLocal r r.runs || badLocal r (statRuns r)

/-- Bytes that QNT writes (R79). -/
def qntBytes (f : Nat) : Nat := if isMx8 f then 544 else if f = fmBf16 then 1024 else 288

/-- The family of an OPA pairing (R40): 0 ternary, 1 four-bit, 2 eight-bit, 3 sixteen-bit. -/
def opaFamily (a b : Nat) : Option Nat :=
  let four := fun f => f == 1 || f == 2 || f == 4
  if four a && four b then some 1
  else if (a == 3 && four b) || (four a && b == 3) then some 0
  else if isMx8 a && isMx8 b then some 2
  else if a == 7 && b == 7 then some 3
  else none

/-- A macro-op at a core's dispatch: its word, and its three regions. -/
structure Args where
  w : W64
  a : Region
  b : Region
  c : Region
  /-- `AEN` of DA. -/
  aen : Bool
  deriving DecidableEq, Repr

/-- The regions of a macro-op as the core holds them at dispatch. -/
def coreArgs (k : Core) (w : W64) : Args :=
  { w := w, a := coreRegion k (mwDa w), b := coreRegion k (mwDb w), c := coreRegion k (mwDc w), aen := descAen k (mwDa w) }

/-- The operands of a macro-op as its dispatch resolved them. -/
def opArgs (p : MOp) : Args := { w := p.word, a := p.da, b := p.db, c := p.dc, aen := false }

/-- The halves of a QNT that are read through the PSP: their regions (R111). -/
def qntPspHalves (x : Args) : List Region :=
  (if natBits (mwSub x.w) 1 0 = 2 then [x.a] else []) ++ (if natBits (mwSub x.w) 3 2 = 2 then [x.b] else [])

/-- Whether VOP's sub-op uses DA alone (R113). -/
def vopUnary (sub : Nat) : Bool := decide (4 ≤ sub % 16) && decide (sub % 16 < 8)
/-- Whether VOP reads DB. -/
def vopReadsB (sub : Nat) : Bool := !vopUnary sub && !natBit sub 6

/-- The partial that ASM's merge reads at DA (R113). -/
def mergeRuns (x : Args) : Runs := [(x.a.base, 128 + 16 * x.c.ext0 * elemBytes x.a.fmt)]

/-- The local side that a macro-op writes, for SPM_POWERED_DOWN (R138). -/
def writesLocal (x : Args) : List (Nat × Runs) :=
  let sub := mwSub x.w
  let o := mwOp x.w
  if o = ocAcd then [(x.c.space, tileRuns x.c)]
  else if o = ocQnt then [(x.c.space, [(x.c.base, qntBytes x.c.fmt)])]
  else if o = ocScl then (if sub % 4 = 1 then [(x.a.space, takeRuns (8 * natBits (mwImm x.w) 12 6) x.a.runs)] else [])
  else if o = ocVop then [(x.c.space, x.c.runs)]
  else if o = ocVred then [(x.c.space, takeRuns (4 * x.a.ext1) x.c.runs)]
  else if o = ocAsm then
    (if sub % 4 = 0 then [(x.a.space, x.a.runs), (x.b.space, statRuns x.b), (x.c.space, x.c.runs)]
     else if sub % 4 = 1 then [(x.b.space, statRuns x.b), (x.c.space, x.c.runs)]
     else [(x.a.space, x.a.runs)])
  else if o = ocRst then [(x.c.space, takeRuns 64 x.c.runs)]
  else if o = ocRld then [(x.c.space, statRuns x.c)]
  else if o = ocVld ∨ o = ocFil ∨ o = ocCpy ∨ o = ocGet then [(x.c.space, x.c.runs)]
  else []

/-- The local sides that a macro-op reads. -/
def readsLocal (x : Args) : List (Nat × Runs) :=
  let sub := mwSub x.w
  let o := mwOp x.w
  if o = ocOpa then [(x.a.space, x.a.runs), (x.b.space, x.b.runs)]
  else if o = ocQnt then (qntPspHalves x).map fun r => (r.space, tileRuns r)
  else if o = ocScl then (if sub % 4 = 0 then [(x.a.space, takeRuns (8 * natBits (mwImm x.w) 12 6) x.a.runs)] else [])
  else if o = ocVop then
    [(x.a.space, x.a.runs)] ++ (if vopReadsB sub then [(x.b.space, x.b.runs)] else [])
      ++ (if sub % 16 = 2 then [(x.c.space, x.c.runs)] else [])
  else if o = ocVred then [(x.a.space, x.a.runs)]
  else if o = ocAsm then
    (if sub % 4 = 0 then [(x.a.space, x.a.runs), (x.b.space, statRuns x.b), (x.c.space, x.c.runs)]
     else if sub % 4 = 1 then [(x.a.space, mergeRuns x), (x.b.space, statRuns x.b), (x.c.space, x.c.runs)]
     else [(x.a.space, x.a.runs), (x.b.space, statRuns x.b)])
  else if o = ocRst then [(x.a.space, statRuns x.a)]
  else if o = ocRld then [(x.a.space, takeRuns 64 x.a.runs)]
  else if o = ocVst ∨ o = ocCpy ∨ o = ocPut ∨ o = ocRput ∨ o = ocSpq then [(x.a.space, x.a.runs)]
  else []

/-- The lines of local sides (R106). -/
def sideLines (xs : List (Nat × Runs)) : List Nat := xs.foldl (fun acc x => (runLines x.1 x.2).foldl setIns acc) []

/-- Whether a local side's write meets a powered-down half. -/
def writesDown (s : State) (c : Nat) (x : Args) : Bool := linesDown s c (sideLines (writesLocal x))

/-- The aligned 128-byte words of partition-virtual runs (R105). -/
def runWords (rs : Runs) : List Nat :=
  rs.foldl (fun acc r => if r.2 = 0 then acc else
    (span (r.1.toNat / 128) ((r.1.toNat + r.2 - 1) / 128 + 1)).foldl setIns acc) []

/-- The Tarn words of a macro-op's Tarn side (R105). -/
def tarnWords (x : Args) : List Nat :=
  if mwOp x.w = ocVld then runWords x.a.runs else if mwOp x.w = ocVst then runWords x.c.runs else []

/-- The range of a WOP: from the region's first byte to its last, gaps included (R144). -/
def wopRange (r : Region) : Int × Int := (r.lo, r.hi)

/-- The refusal of each macro-op at dispatch, the first in the order of R101, from R109 to R117 and R144. DESIGN CHOICE: an ACD whose DC is
not 1 KiB raises FORMAT, where R110 says FORMAT or ADDRESS; a VRED, RST or RLD whose region holds fewer elements than it has values, and an
ASM whose score or output tile is not 16 rows or not a multiple of 16 wide, raises EXTENT, where R113 names no fault; the DC of an ASM in
replay form, which leaves o unchanged, is not checked, where R101 and R113 do not say whether such a macro-op names it. -/
def refusal (s : State) (c : Nat) (x : Args) : Option Nat :=
  let sub := mwSub x.w
  let imm := mwImm x.w
  let part := lciPart s c
  let down := writesDown s c x
  let o := mwOp x.w
  if o = ocOpa then firstOf
    [(badDesc x.a || badDesc x.b, fcDescInvalid),
     (badBlockExt x.a || badBlockExt x.b || x.a.ext0 != x.b.ext0 || x.a.ext1 != 16 || x.b.ext1 != 16, fcExtent),
     ((opaFamily x.a.fmt x.b.fmt).isNone, fcFormat),
     (badLocal x.a x.a.runs || badLocal x.b x.b.runs || x.a.space == 2 || x.b.space == 2, fcAddress)]
  else if o = ocAcd then firstOf
    [(badDesc x.c, fcDescInvalid), (badBlockExt x.c, fcExtent),
     (x.c.fmt != fmFp32 || x.c.bytes != 1024, fcFormat),
     (x.c.space != 2 || badLocal x.c x.c.runs || badLocal x.c (tileRuns x.c), fcAddress), (down, fcSpmDown)]
  else if o = ocQnt then
    let hs := qntPspHalves x
    firstOf
    [(hs.any badDesc || badDesc x.c || hs.any (fun r => r.stride0 != 64), fcDescInvalid),
     (badBlockExt x.c || hs.any badBlockExt || hs.any (fun r => r.ext0 != 16 || r.ext1 != 16), fcExtent),
     (!(x.c.fmt == 1 || x.c.fmt == 4 || isMx8 x.c.fmt || x.c.fmt == 7) || hs.any (fun r => r.fmt != fmFp32), fcFormat),
     (x.c.space != 2 || badLocal x.c [(x.c.base, qntBytes x.c.fmt)] ||
        hs.any (fun r => r.space != 2 || badLocal r (tileRuns r)), fcAddress),
     (down, fcSpmDown)]
  else if o = ocScl then
    let n := natBits imm 12 6
    let mem := decide (sub % 4 < 2)
    firstOf
    [(sub % 4 == 3, fcIllegalOp), (n == 0 || decide (64 < imm % 64 + n), fcScaleRange),
     (mem && badDesc x.a, fcDescInvalid), (mem && (badBlockExt x.a || decide (x.a.bytes < 8 * n)), fcExtent),
     (mem && badLocal x.a x.a.runs, fcAddress), (down, fcSpmDown)]
  else if o = ocVop then
    let rb := vopReadsB sub
    let per := natBit sub 7
    firstOf
    [(decide (8 ≤ sub % 16) || (natBit sub 6 && per), fcIllegalOp),
     (badDesc x.a || badDesc x.c || (rb && badDesc x.b), fcDescInvalid),
     (badBlockExt x.a || badBlockExt x.c || (rb && badBlockExt x.b) || x.a.elems != x.c.elems ||
        (rb && x.b.elems != (if per then x.c.ext1 else x.c.elems)), fcExtent),
     (!isFloat x.a.fmt || !isFloat x.c.fmt || (rb && !isFloat x.b.fmt), fcFormat),
     (badLocal x.a x.a.runs || badLocal x.c x.c.runs || (rb && badLocal x.b x.b.runs), fcAddress), (down, fcSpmDown)]
  else if o = ocVred then firstOf
    [(badDesc x.a || badDesc x.c, fcDescInvalid),
     (badBlockExt x.a || badBlockExt x.c || decide (x.c.elems < x.a.ext1), fcExtent),
     (!isFloat x.a.fmt || x.c.fmt != fmFp32, fcFormat),
     (badLocal x.a x.a.runs || badLocal x.c x.c.runs, fcAddress), (down, fcSpmDown)]
  else if o = ocAsm then
    let f := sub % 4
    let useC := decide (f < 2)
    firstOf
    [(f == 3, fcIllegalOp),
     (badDesc x.a || badDesc x.b || (useC && badDesc x.c), fcDescInvalid),
     (badBlockExt x.a || badBlockExt x.b || (useC && (badBlockExt x.c || x.c.ext1 != 16 || x.c.ext0 % 16 != 0)) ||
        (f != 1 && (x.a.ext1 != 16 || x.a.ext0 % 16 != 0)), fcExtent),
     ((if f = 1 then !isFloat x.a.fmt else x.a.fmt != fmFp32) || (useC && x.c.fmt != fmFp32), fcFormat),
     ((if f = 1 then badLocal x.a (mergeRuns x) else badLocal x.a x.a.runs) || x.b.space != 2 || badStats x.b ||
        (useC && badLocal x.c x.c.runs), fcAddress),
     (down, fcSpmDown)]
  else if o = ocRst then firstOf
    [(badDesc x.a || badDesc x.c, fcDescInvalid),
     (badBlockExt x.a || badBlockExt x.c || decide (x.c.elems < 16), fcExtent), (x.c.fmt != fmFp32, fcFormat),
     (x.a.space != 2 || badStats x.a || badLocal x.c x.c.runs, fcAddress), (down, fcSpmDown)]
  else if o = ocRld then firstOf
    [(badDesc x.a || badDesc x.c, fcDescInvalid),
     (badBlockExt x.a || badBlockExt x.c || decide (x.a.elems < 16), fcExtent), (x.a.fmt != fmFp32, fcFormat),
     (x.c.space != 2 || badStats x.c || badLocal x.a x.a.runs, fcAddress), (down, fcSpmDown)]
  else if o = ocVld then
    let bc := natBit sub 1
    firstOf
    [(badDesc x.a || badDesc x.c || (bc && x.aen), fcDescInvalid),
     (badBlockExt x.a || badBlockExt x.c || x.a.ext0 != x.c.ext0 || x.a.ext1 != x.c.ext1, fcExtent),
     (x.a.fmt != x.c.fmt || (natBit sub 0 && !isBlock x.a.fmt), fcFormat),
     (badLocal x.c x.c.runs || (bc && x.c.space != 1) || (x.a.space == 4 && badVirt x.a) ||
        (x.a.isLocal && badLocal x.a x.a.runs) || (x.a.space == 3 && badPkg s part x.a), fcAddress),
     (down, fcSpmDown), (x.a.space != 4, fcNotLocal)]
  else if o = ocVst then firstOf
    [(badDesc x.a || badDesc x.c, fcDescInvalid),
     (badBlockExt x.a || badBlockExt x.c || x.a.ext0 != x.c.ext0 || x.a.ext1 != x.c.ext1, fcExtent),
     (x.a.fmt != x.c.fmt, fcFormat),
     (badLocal x.a x.a.runs || (x.c.space == 4 && badVirt x.c) || (x.c.isLocal && badLocal x.c x.c.runs) ||
        (x.c.space == 3 && (badPkg s part x.c || namesPage x.c)), fcAddress),
     (x.c.space != 4, fcNotLocal)]
  else if o = ocFil then firstOf
    [(badDesc x.c, fcDescInvalid), (badBlockExt x.c, fcExtent), (badLocal x.c x.c.runs, fcAddress), (down, fcSpmDown)]
  else if o = ocCpy then firstOf
    [(badDesc x.a || badDesc x.c, fcDescInvalid),
     (badBlockExt x.a || badBlockExt x.c || x.a.bytes != x.c.bytes, fcExtent),
     (badLocal x.a x.a.runs || badLocal x.c x.c.runs, fcAddress), (down, fcSpmDown)]
  else if o = ocPut then firstOf
    [(badDesc x.a || badDesc x.c, fcDescInvalid),
     (badBlockExt x.a || badBlockExt x.c || x.a.bytes != x.c.bytes, fcExtent),
     (badLocal x.a x.a.runs || badRemote s part x.c || (natBit sub 0 && x.c.space != 3) || namesPage x.c, fcAddress)]
  else if o = ocRput then firstOf
    [(badDesc x.a || badDesc x.c, fcDescInvalid),
     (badBlockExt x.a || badBlockExt x.c || x.a.bytes != x.c.bytes, fcExtent),
     (!isFloat x.a.fmt || x.a.fmt != x.c.fmt, fcFormat),
     (badLocal x.a x.a.runs || x.c.space != 3 || badRemote s part x.c || namesPage x.c ||
        x.c.runs.any (fun r => decide (r.1.toNat % 32768 < 0x6000)), fcAddress)]
  else if o = ocGet then firstOf
    [(badDesc x.a || badDesc x.c, fcDescInvalid),
     (badBlockExt x.a || badBlockExt x.c || x.a.bytes != x.c.bytes, fcExtent),
     (badRemote s part x.a || badLocal x.c x.c.runs, fcAddress), (down, fcSpmDown)]
  else if o = ocSpq then firstOf
    [(badDesc x.a, fcDescInvalid), (badBlockExt x.a, fcExtent), (badLocal x.a x.a.runs, fcAddress)]
  else if o = ocWop then firstOf
    [(badDesc x.c || natBits imm 3 2 == 3 ||
        (x.c.isLocal && (decide (x.c.lo.emod 64 ≠ 0) || decide (x.c.hi.emod 64 ≠ 0))), fcDescInvalid),
     (badBlockExt x.c, fcExtent),
     (!x.c.isLocal || !runsInside x.c.space [(x.c.lo, (x.c.hi - x.c.lo).toNat)], fcAddress),
     (linesDown s c (runLines x.c.space [(x.c.lo, (x.c.hi - x.c.lo).toNat)]), fcSpmDown)]
  else if o = ocBar then firstOf [(sub % 4 == 3, fcDescInvalid)]
  else if o = ocPrd then firstOf [(decide (6 ≤ sub % 8), fcIllegalOp)]
  else if o = ocSig then
    firstOf
    [(badDesc x.c, fcDescInvalid), (badBlockExt x.c, fcExtent), (x.c.space != 3 || badPkg s part x.c, fcAddress)]
  else none

/-- The address of a fault found at dispatch (R98, R123): a free value where the fault is about an address, else zero. -/
def refusedAddr (c code : Nat) (x : Args) : Nat :=
  if code = fcAddress ∨ code = fcSpmDown ∨ code = fcNotLocal then Config.refusedAddress c code x.w [x.a.base, x.b.base, x.c.base] else 0

end Sys2Proof.Machine
end

