-- ==== Sys2Proof/Machine/EngineOps.lean ====
section
/-! DEFINITION. What the outer-product engine does: operand layouts (R60, R61, R128 to R131), block sums and their closing (R62 to R68),
bank conflicts (R131 to R133), and the accumulator banks (R43 to R46). -/

namespace Sys2Proof.Machine

/-! ### Operand layout -/

/-- The 16-byte unit, from the effective base, of element unit `j` of block group `g` of row `r` (R129); T2 and BF16 are plain. -/
def elemUnit (fmt : Nat) (s r : Int) (g j : Nat) : Int :=
  let sigma := (r * (1 - s)).emod 8
  if isMx8 fmt then s * r + g * 17 + (j + sigma).emod 16
  else s * r + g * 9 + (j + sigma).emod 8

/-- The byte address of the bytes that hold element `k` of row `r` of an operand. -/
def elemAddr (x : Region) (r k : Nat) : Int :=
  let s := x.stride0 / 16
  let g := k / 256
  let b := k % 256 / 32
  let e := k % 32
  if x.fmt = fmBf16 then x.row r + 2 * k
  else if x.fmt = fmT2 then x.row r + 80 * g + 8 * b + e / 4
  else if isMx8 x.fmt then x.base + 16 * elemUnit x.fmt s r g (2 * b + e / 16) + e % 16
  else x.base + 16 * elemUnit x.fmt s r g b + e / 2

/-- The byte address of the header or scale of block `n` of row `r` (R60). -/
def headAddr (x : Region) (r n : Nat) : Int :=
  let g := n / 8
  let b := n % 8
  let p := x.row r + g * groupBytes x.fmt
  if x.fmt = fmT2 then p + 64 + 2 * b
  else if isMx8 x.fmt then p + 256 + b
  else if x.fmt = fmMx4 then p + 128 + b
  else p + 128 + 2 * b

/-- A byte of a local scratchpad. -/
def locByte (s : State) (c sp : Nat) (a : Int) : Nat := ((spmBytes s c (spaceBase sp + a.toNat) 1).getD 0 0).toNat

/-- One block of an operand row: its exponent, its sub-block offsets and its elements. -/
structure Blk where
  x : Nat
  ds : List Nat
  els : List FVal
  deriving DecidableEq, Repr

/-- The offsets of a 16-bit header; a flagged header has none (R56, R58). -/
def headDs (h : Nat) : List Nat :=
  if natBits h 15 8 = 255 then [0, 0, 0, 0] else [natBits h 9 8, natBits h 11 10, natBits h 13 12, natBits h 15 14]

/-- Element `k` of row `r`, as an exact value: 4-bit and ternary codes in halves times 2⁻¹ (R50 to R54). -/
def elemVal (s : State) (c : Nat) (x : Region) (r k : Nat) : FVal :=
  let byte := locByte s c x.space (elemAddr x r k)
  let nib := if k % 2 = 0 then byte % 16 else byte / 16
  if x.fmt = fmInt4 then ofInt (int4Int nib) (-1)
  else if x.fmt = fmT2 then ofInt (t2Int (byte / 4 ^ (k % 4) % 4)) (-1)
  else if isMx8 x.fmt then fp8Val (x.fmt == fmMx8e5) byte
  else if x.fmt = fmBf16 then decodeF bf16 (byte + 256 * locByte s c x.space (elemAddr x r k + 1))
  else ofInt (e2m1Int nib) (-1)

/-- Block `n` of row `r` of a block-format operand. -/
def readBlk (s : State) (c : Nat) (x : Region) (r n : Nat) : Blk :=
  let h0 := locByte s c x.space (headAddr x r n)
  let els := (List.range 32).map fun e => elemVal s c x r (32 * n + e)
  if isMx8 x.fmt || x.fmt == fmMx4 then { x := h0, ds := [0, 0, 0, 0], els := els }
  else { x := h0, ds := headDs (h0 + 256 * locByte s c x.space (headAddr x r n + 1)), els := els }

/-! ### Blocks and their closing -/

/-- The exact sum of the products of two element lists (R62, R65, R68). -/
def dotVals : List FVal → List FVal → FVal → FVal
  | a :: as, b :: bs, acc => dotVals as bs (vAdd acc (vMul a b))
  | _, _, acc => acc

/-- A value times a power of two. -/
def vScale (v : FVal) (e : Int) : FVal :=
  match v with
  | .fin n m q => .fin n m (q + e)
  | v => v

/-- The exact value of a block pair, its offsets applied by sub-block (R57, R63, R65). -/
def blkDot (a b : Blk) : FVal :=
  if a.x = 255 ∨ b.x = 255 then .nan else
  let parts := (List.range 4).map fun i =>
    let d : Int := (a.ds.getD i 0 : Int) + b.ds.getD i 0
    vScale (dotVals ((a.els.drop (8 * i)).take 8) ((b.els.drop (8 * i)).take 8) (.fin false 0 0)) (-d)
  vScale (parts.foldl vAdd (.fin false 0 0)) ((a.x : Int) + b.x - 254)

/-- A block pair closed into an accumulator: two roundings (R64, R65). -/
def closeBlk (acc : W32) (a b : Blk) : W32 := fAdd (toF32 (blkDot a b)) acc

/-- A chain of block pairs closed in order. -/
def closeBlks : List Blk → List Blk → W32 → W32
  | a :: as, b :: bs, acc => closeBlks as bs (closeBlk acc a b)
  | _, _, acc => acc

/-- BF16 products added one by one, one rounding each (R66). DEDUCED: a product of zero leaves the accumulator as it is, the sign of a
zero included, for a cell that is held still does not add, and gating changes no result (R48, R49). -/
def bfChain : List FVal → List FVal → W32 → W32
  | a :: as, b :: bs, acc =>
    let p := vMul a b
    bfChain as bs (if vIsZero p then acc else toF32 (vAdd p (f32 acc)))
  | _, _, acc => acc

/-- The accumulators of bank `n`. -/
def Core.bank (k : Core) (n : Nat) : SMap W32 := if n = 0 then k.acc0 else k.acc1

/-- The core with the accumulators of bank `n` replaced. -/
def Core.setBank (k : Core) (n : Nat) (m : SMap W32) : Core :=
  if n = 0 then { k with acc0 := m } else { k with acc1 := m }

/-- The cells of a tile from a function of row and column, +0.0 unlisted. -/
def tileOf (f : Nat → Nat → W32) : SMap W32 :=
  (List.range 256).filterMap fun n =>
    let v := f (n / 16) (n % 16)
    if v = 0 then none else some (n, v)

/-- The accumulators after an OPA (R39, R109): every cell's chain over its row of A and its row of B. -/
def opaBank (s : State) (c : Nat) (x : Args) : SMap W32 :=
  let k := getCore s c
  let old := fun n => if natBit (mwSub x.w) 0 then (0 : W32) else smapGet 0 (k.bank k.abank) n
  if x.a.fmt = fmBf16 then
    let row := fun (r : Region) i => (List.range x.a.ext0).map fun e => elemVal s c r i e
    let as := (List.range 16).map (row x.a)
    let bs := (List.range 16).map (row x.b)
    tileOf fun i j => bfChain (as.getD i []) (bs.getD j []) (old (16 * i + j))
  else
    let n := x.a.ext0 / 32
    let row := fun (r : Region) i => (List.range n).map fun e => readBlk s c r i e
    let as := (List.range 16).map (row x.a)
    let bs := (List.range 16).map (row x.b)
    tileOf fun i j => closeBlks (as.getD i []) (bs.getD j []) (old (16 * i + j))

/-! ### Data gating (R48, R49) -/

/-- What gating sees of an element: whether its code is a zero of its format (R48), and whether its value is an infinity or a NaN, of a block whose
exponent is 0xFF every one (R57, R59). -/
structure GateElem where
  zero : Bool
  special : Bool
  deriving DecidableEq, Repr

/-- Element `k` of row `r` of an operand as gating sees it. -/
def gateElem (s : State) (c : Nat) (x : Region) (r k : Nat) : GateElem :=
  let v := elemVal s c x r k
  { zero := vIsZero v
    special := (match v with | .fin _ _ _ => false | _ => true) || (isBlock x.fmt && locByte s c x.space (headAddr x r (k / 32)) == 255) }

/-- The elements that are not held still in a K-step, by place: a zero is held unless a partner is an infinity or a NaN. -/
def ungated (xs partners : List GateElem) : List Bool := xs.map fun v => partners.any (·.special) || !v.zero

/-- How many entries are set. -/
def countSet (bs : List Bool) : Nat := bs.count true

/-- The cells that toggle in a cycle that takes one K-step: those with an element of each operand that is not held. -/
def stepToggles (a b : List GateElem) : Nat := countSet (ungated a b) * countSet (ungated b a)

/-- The cells that toggle in a cycle of the ternary family, which takes two K-steps (R41): in either of them. -/
def pairToggles (a b a' b' : List GateElem) : Nat :=
  let both := fun (x y : List Bool) => countSet ((x.zip y).map fun p => p.1 && p.2)
  stepToggles a b + stepToggles a' b' - both (ungated a b) (ungated a' b') * both (ungated b a) (ungated b' a')

/-- The cell-cycles of an OPA that toggle (R49): the digit passes of a K-step gate together. -/
def opaToggles (s : State) (c : Nat) (x : Args) : Nat :=
  let col := fun (r : Region) (k : Nat) => (List.range 16).map fun i => gateElem s c r i k
  let step := fun k => stepToggles (col x.a k) (col x.b k)
  match opaFamily x.a.fmt x.b.fmt with
  | none => 0
  | some 0 => ((List.range (x.a.ext0 / 2)).map fun k =>
      pairToggles (col x.a (2 * k)) (col x.b (2 * k)) (col x.a (2 * k + 1)) (col x.b (2 * k + 1))).sum
  | some f => (if f = 1 then 1 else if f = 2 then 4 else 16) * ((List.range x.a.ext0).map step).sum

/-! ### Bank conflicts (R131 to R133) -/

/-- The bank of a unit of an operand, by its scratchpad (R126). -/
def unitBank (x : Region) (unit : Int) : Nat × Int := (x.space, (x.base / 16 + unit).emod 8)

/-- The unit indices of a row's span `p` that an operand stages, by row (R131): one list of units per staging read. -/
def spanUnits (x : Region) (p : Nat) : List (Nat → Int) :=
  let s := x.stride0 / 16
  if x.fmt = fmBf16 then
    let first := fun (r : Nat) => (x.row r + 32 * p) / 16 - x.base / 16
    let n := if (x.base + 32 * p).emod 16 = 0 then 2 else 3
    (List.range n).map fun (i : Nat) => fun r => first r + (i : Int)
  else if x.fmt = fmT2 then [fun r => (x.row r + 80 * (p / 8) + 8 * (p % 8)) / 16 - x.base / 16]
  else if isMx8 x.fmt then
    [fun r => elemUnit x.fmt s r (p / 8) (2 * (p % 8)), fun r => elemUnit x.fmt s r (p / 8) (2 * (p % 8) + 1)]
  else [fun r => elemUnit x.fmt s r (p / 8) (p % 8)]

/-- The banks that half `h` of the rows needs for one staging read. -/
def readBanks (x : Region) (u : Nat → Int) (h : Nat) : List (Nat × Int) :=
  (List.range 8).map fun r => unitBank x (u (8 * h + r))

/-- The largest number of units from any one bank. -/
def worstBank (bs : List (Nat × Int)) : Nat := bs.foldl (fun m b => max m (bs.count b)) 0

/-- The spans of an operand's extent (R42). -/
def spanCount (fmt k : Nat) : Nat := if fmt = fmBf16 then ceilDiv k 16 else ceilDiv k 32

/-- The staging cycles of span `p`: the banks that both operands need in each. -/
def stageCycles (x : Args) (p : Nat) : List (List (Nat × Int)) :=
  let ua := spanUnits x.a p
  let ub := spanUnits x.b p
  (List.range (max ua.length ub.length)).flatMap fun i =>
    (List.range 2).map fun h =>
      (match ua[i]? with | some u => readBanks x.a u h | none => []) ++
      (match ub[i]? with | some u => readBanks x.b u h | none => [])

/-- The K-step cycles of one span (R131). -/
def spanCycles (fam : Nat) : Nat := match fam with | 0 => 16 | 1 => 32 | 2 => 128 | _ => 256

/-- The banks of the header units of group `g` of an operand. -/
def headBanks (x : Region) (g : Nat) : List (Nat × Int) :=
  if x.fmt = fmBf16 then [] else
  (List.range 16).map fun r => unitBank x ((headAddr x r (8 * g)) / 16 - x.base / 16)

/-- The header units still missing when the first span of group `g` is due to close (R132): those of each bank beyond the bank cycles
that the span's element reads leave free. -/
def missingHeads (x : Args) (fam g : Nat) : Nat :=
  let hs := headBanks x.a g ++ headBanks x.b g
  let used := (stageCycles x (8 * g)).flatten
  let banks := hs.foldl (fun acc b => if acc.contains b then acc else acc ++ [b]) []
  banks.foldl (fun n b => n + (hs.count b - (spanCycles fam - used.count b))) 0

/-- How many times an OPA raises SPM_BANK_CONFLICT (R132). -/
def opaConflicts (x : Args) : Nat :=
  match opaFamily x.a.fmt x.b.fmt with
  | none => 0
  | some fam =>
    let n := spanCount x.a.fmt x.a.ext0
    let st := (List.range n).foldl (fun t p => (stageCycles x p).foldl (fun t bs => t + (worstBank bs - 1)) t) 0
    let hd := if fam = 3 then 0 else (List.range (ceilDiv n 8)).foldl (fun t g => t + missingHeads x fam g) 0
    st + hd

/-- OPA (R109): the products accumulated into the active bank, the conflicts of its reads reported, and the cell-cycles that toggled counted
for the cluster's activity estimate (R49). -/
def opaRun (c : Nat) (x : Args) (s : State) : State :=
  let m := opaBank s c x
  coreEvents (opaConflicts x) c fcBankConflict ocOpa <| countAct (lciDc c) akToggle (opaToggles s c x) <|
    updCore s c fun k => k.setBank k.abank m

/-- ACZ (R110): bank SUB[0] cleared to +0.0. -/
def aczRun (c : Nat) (x : Args) (s : State) : State :=
  updCore s c fun k => k.setBank (mwSub x.w % 2) []

/-- The active bank after an ACS (R110). -/
def acsBank (sub old : Nat) : Nat := if natBit sub 1 then sub % 2 else 1 - old

/-- ACS (R110): the roles of the banks exchanged, or bank SUB[0] made active. -/
def acsRun (c : Nat) (x : Args) (s : State) : State :=
  updCore s c fun k => { k with abank := acsBank (mwSub x.w) k.abank }

/-- The bytes of a tile in row-major order (R45). -/
def tileBytes (m : SMap W32) : List Byte :=
  (List.range 256).flatMap fun n => leBytes 4 (smapGet 0 m n).toNat

/-- ACD (R110): bank SUB[0] drained to the destination in the PSP. -/
def acdRun (c : Nat) (x : Args) (s : State) : State × Option Nat :=
  let k := getCore s c
  spmPut c (spaceBase x.c.space + x.c.base.toNat) (tileBytes (k.bank (mwSub x.w % 2))) s

end Sys2Proof.Machine
end

