-- ==== Sys2Proof/Machine/QuantOps.lean ====
section
/-! DEFINITION. Scale tables, QNT's conversion and SCL (R72 to R92, R111, R112). -/

namespace Sys2Proof.Machine

/-- A scale-table entry's value after a core reset: EXP 0x7F, UTH 0b100 (R73). -/
def scaleReset : W64 := 0x807F#64

/-- Entry `n` of a core's scale table. -/
def getScale (k : Core) (n : Nat) : W64 := smapGet scaleReset k.scale n
/-- The core with an entry written: EXP 0xFF stores 0xFE, and reserved bits read as zero (R18, R73). -/
def setScale (k : Core) (n v : Nat) : Core :=
  let v0 := if v % 256 = 255 then v - 1 else v
  let v1 := natBits v0 63 32 * 2 ^ 32 + natBits v0 23 0
  { k with scale := smapSet scaleReset k.scale n (w64 v1) }

/-- An entry by its fields (R73). -/
structure SEnt where
  exp : Nat
  mode : Nat
  raise : Bool
  ufl : Bool
  pv : Bool
  uth : Nat
  peak : Nat
  ovf : Nat
  unf : Nat
  deriving DecidableEq, Repr

/-- The fields of an entry's word. -/
def sentOf (x : W64) : SEnt :=
  let n := x.toNat
  { exp := natBits n 7 0, mode := natBits n 9 8, raise := natBit n 10, ufl := natBit n 11, pv := natBit n 12,
    uth := natBits n 15 13, peak := natBits n 23 16, ovf := natBits n 47 32, unf := natBits n 63 48 }

/-- The word of an entry's fields. -/
def sentWord (e : SEnt) : Nat :=
  e.exp + 2 ^ 8 * e.mode + 2 ^ 10 * bit e.raise + 2 ^ 11 * bit e.ufl + 2 ^ 12 * bit e.pv + 2 ^ 13 * e.uth + 2 ^ 16 * e.peak
    + 2 ^ 32 * e.ovf + 2 ^ 48 * e.unf

/-! ### Conversion of one block -/

/-- The element format of an output format (R82). -/
def qfmtOf (f : Nat) : QFmt := if f = fmMx8e4 then qE4M3 else if f = fmMx8e5 then qE5M2 else qE2M1
/-- The sign bit's place in an element's code. -/
def qsign (f : Nat) : Nat := if isMx8 f then 7 else 3

def isNanV : FVal → Bool | .nan => true | _ => false
def isInfV : FVal → Bool | .inf _ => true | _ => false

/-- Whether a finite element of a list overflows at exponent `e` (R82). -/
def overflowsAt (f : Nat) (e : Int) (vs : List FVal) : Bool := vs.any (qOverflows (qfmtOf f) (e - 127))

/-- `need(b)` (R87). -/
def needExp (f : Nat) (vs : List FVal) : Nat :=
  ((List.range 255).find? fun (e : Nat) => !overflowsAt f e vs).getD 254

/-- The largest offset of a sub-block at which nothing overflows (R83). -/
def subOffset (f e : Nat) (vs : List FVal) : Nat :=
  ((List.range (min 3 e + 1)).reverse.find? fun (d : Nat) => !overflowsAt f ((e : Int) - d) vs).getD 0

/-- What a block is written as (R83, R84, R86, R87): its codes, its header's value and how many elements flushed. -/
structure QBlk where
  codes : List Nat
  head : Nat
  flushed : Nat
  deriving DecidableEq, Repr

/-- A block's elements at given exponents by sub-block. -/
def qElems (f : Nat) (es : List Int) (vs : List FVal) : List Nat × Nat :=
  let at8 := fun i => es.getD (i / 8) 0 - 127
  let codes := (List.range vs.length).map fun i => qCode (qfmtOf f) (qsign f) (at8 i) (vs.getD i .nan)
  let fl := ((List.range vs.length).filter fun i => qFlushes (qfmtOf f) (at8 i) (vs.getD i .nan)).length
  (codes, fl)

/-- A NaN block: X = 0xFF, elements zero (R86). DESIGN CHOICE: the D fields of an SB4 header, which R57 ignores in such a block, are 0. -/
def qNan : QBlk := { codes := List.replicate 32 0, head := 0xFF, flushed := 0 }

/-- A saturated block at the single exponent `e` (R87): an SB4 header is flagged (R58). -/
def qSaturated (f e : Nat) (vs : List FVal) : QBlk :=
  let r := qElems f [e, e, e, e] vs
  { codes := r.1, head := if f = fmSb4 then e + 0xFF00 else e, flushed := r.2 }

/-- A block in canonical form (R83), or an MX block at X = e (R84). -/
def qPlain (f e : Nat) (vs : List FVal) : QBlk :=
  if f = fmSb4 then
    let ds := (List.range 4).map fun i => subOffset f e ((vs.drop (8 * i)).take 8)
    let dm := ds.foldl min 3
    let r := qElems f (ds.map fun (d : Nat) => (e : Int) - d) vs
    let hd := (e - dm) + ((List.range 4).foldl (fun h i => h + 2 ^ (8 + 2 * i) * (ds.getD i 0 - dm)) 0)
    { codes := r.1, head := hd, flushed := r.2 }
  else
    let r := qElems f [e, e, e, e] vs
    { codes := r.1, head := e, flushed := r.2 }

/-- One block's turn in the loop of R87: what is written, and the entry's counts after it. -/
def qBlock (f e : Nat) (vs : List FVal) (t : SEnt) : QBlk × SEnt :=
  if vs.any isNanV then (qNan, { t with ovf := sat16 (t.ovf + 1) }) else
  let fo := overflowsAt f e vs
  let r :=
    if fo || vs.any isInfV then
      (qSaturated f e vs, { t with ovf := sat16 (t.ovf + 1), raise := t.raise || fo })
    else (qPlain f e vs, t)
  let t1 := if 4 * r.2.uth < r.1.flushed then { r.2 with unf := sat16 (r.2.unf + 1), ufl := true } else r.2
  let fin := vs.any fun v => match v with | .fin _ m _ => m != 0 | _ => false
  let n := needExp f vs
  (r.1, if fin then { t1 with peak := if t1.pv then max t1.peak n else n, pv := true } else t1)

/-- The exponent after the recomputes of a live source, and how many there were (R87). -/
def qRaise (f : Nat) (blocks : List (List FVal)) : Nat → Nat → Nat → Nat × Nat
  | 0, e, n => (e, n)
  | fuel + 1, e, n =>
    if e < 254 ∧ blocks.any (fun b => !b.any isNanV && overflowsAt f e b) then qRaise f blocks fuel (e + 1) (n + 1)
    else (e, n)

/-- The bytes of a block's elements (R61). -/
def packCodes (f : Nat) (cs : List Nat) : List Byte :=
  if isMx8 f then cs.map (BitVec.ofNat 8)
  else (List.range 16).map fun i => BitVec.ofNat 8 (cs.getD (2 * i) 0 + 16 * cs.getD (2 * i + 1) 0)

/-- The writes of block `b`: (offset from the destination, bytes), its padding with the group's last block (R60). -/
def qWrites (f b : Nat) (q : QBlk) : List (Nat × List Byte) :=
  let g := b / 8 * groupBytes f
  let i := b % 8
  let pad := fun o => if i = 7 ∧ f ≠ fmSb4 then [(g + o, List.replicate 8 (0 : Byte))] else []
  if isMx8 f then [(g + 32 * i, packCodes f q.codes), (g + 256 + i, leBytes 1 q.head)] ++ pad 264
  else if f = fmMx4 then [(g + 16 * i, packCodes f q.codes), (g + 128 + i, leBytes 1 q.head)] ++ pad 136
  else [(g + 16 * i, packCodes f q.codes), (g + 128 + 2 * i, leBytes 2 q.head)]

/-! ### QNT -/

/-- Element (i, j) of a half (R79): bank 0, bank 1, the PSP tile of a region, or zero. -/
def halfVal (s : State) (c src : Nat) (r : Region) (i j : Nat) : FVal :=
  let k := getCore s c
  let n := 16 * i + j
  match src with
  | 0 => f32 (smapGet 0 k.acc0 n)
  | 1 => f32 (smapGet 0 k.acc1 n)
  | 2 => f32 (BitVec.ofNat 32 (leNat (spmBytes s c (spaceBase r.space + r.base.toNat + 4 * n) 4)))
  | _ => f32 0

/-- Element `e` of block `b` of the region that a QNT converts (R79, R111). -/
def qntVal (s : State) (c : Nat) (x : Args) (b e : Nat) : FVal :=
  let sub := mwSub x.w
  let half1 := decide (16 ≤ e)
  let src := if half1 then natBits sub 3 2 else natBits sub 1 0
  let r := if half1 then x.b else x.a
  -- row form: block b is row b, e the column; column form: block b is column b, e the row
  if natBit sub 4 then halfVal s c src r (e % 16) b else halfVal s c src r b (e % 16)

/-- The 32 elements of block `b`. -/
def qntBlk (s : State) (c : Nat) (x : Args) (b : Nat) : List FVal := (List.range 32).map (qntVal s c x b)

/-- Whether the source is live (R80). -/
def qntLive (x : Args) : Bool := (qntPspHalves x).isEmpty

/-- Several writes into the PSP, stopping at a refusal. -/
def putAll (c base : Nat) : List (Nat × List Byte) → State → State × Option Nat
  | [], s => (s, none)
  | (o, bs) :: ws, s =>
    let r := spmPut c (base + o) bs s
    match r.2 with
    | none => putAll c base ws r.1
    | some e => (r.1, some e)

/-- The blocks in order (R88): each converted from what its source holds now, written, and then counted. -/
def qntBlocks (c : Nat) (x : Args) (e : Nat) : List Nat → State → State × Option Nat
  | [], s => (s, none)
  | b :: bs, s =>
    let t := sentOf (getScale (getCore s c) x.c.sidx)
    let r := qBlock x.c.fmt e (qntBlk s c x b) t
    let w := putAll c (spaceBase x.c.space + x.c.base.toNat) (qWrites x.c.fmt b r.1) s
    match w.2 with
    | some a => (w.1, some a)
    | none => qntBlocks c x e bs (updCore w.1 c fun k => setScale k x.c.sidx (sentWord r.2))

/-- A BF16 code, a negative zero as the positive one: QNT writes no other (R82). -/
def noNegZero (v : Nat) : Nat := if v = 0x8000 then 0 else v

/-- The blocks of a BF16 conversion in order (R85): whether any result is an infinity or a NaN. -/
def qntBf (c : Nat) (x : Args) : List Nat → Bool → State → State × Option Nat × Bool
  | [], bad, s => (s, none, bad)
  | b :: bs, bad, s =>
    let vs := (qntBlk s c x b).map fun v => noNegZero (encodeF bf16 v)
    let bad' := bad || vs.any fun v => natBits v 14 7 == 255
    let w := spmPut c (spaceBase x.c.space + x.c.base.toNat + 64 * b) (vs.flatMap (leBytes 2)) s
    match w.2 with
    | some a => (w.1, some a, bad')
    | none => qntBf c x bs bad' w.1

/-- QNT (R87 to R91). A live source's exponent is fixed before anything is written, and its blocks are those of the banks. -/
def qntRun (c : Nat) (x : Args) (s : State) : State × Option Nat :=
  let t := sentOf (getScale (getCore s c) x.c.sidx)
  if x.c.fmt = fmBf16 then
    let r := qntBf c x (List.range 16) false s
    match r.2.1 with
    | some a => (r.1, some a)
    | none =>
      if r.2.2 then (updCore r.1 c fun k => setScale k x.c.sidx (sentWord { t with ovf := sat16 (t.ovf + 1) }), none)
      else (r.1, none)
  else
    let er := if qntLive x && t.mode == 0 then qRaise x.c.fmt ((List.range 16).map (qntBlk s c x)) 3 t.exp 0 else (t.exp, 0)
    let r := qntBlocks c x er.1 (List.range 16) s
    match r.2 with
    | some a => (r.1, some a)
    | none =>
      if 0 < er.2 then
        (updCore r.1 c fun k => setScale k x.c.sidx (sentWord { sentOf (getScale k x.c.sidx) with raise := true }), none)
      else (r.1, none)

/-! ### SCL (R112) -/

/-- The end-of-step rule of one entry (R92); mode 0b11 is taken for FIXED (R74). -/
def endOfStep (t : SEnt) : SEnt :=
  let t1 :=
    if t.mode < 2 then
      if t.raise then { t with exp := min (t.exp + 1) 254 }
      else if t.ufl ∧ t.pv ∧ 0 < t.exp ∧ t.peak ≤ t.exp - 1 then { t with exp := t.exp - 1 }
      else t
    else t
  { t1 with raise := false, ufl := false, pv := false, peak := 0 }

/-- The entries that an SCL names. -/
def sclEntries (x : Args) : List Nat := (List.range (natBits (mwImm x.w) 12 6)).map (mwImm x.w % 64 + ·)

/-- SCL (R112): load, store or end of step. -/
def sclRun (c : Nat) (x : Args) (s : State) : State × Option Nat :=
  let es := sclEntries x
  let rs := takeRuns (8 * es.length) x.a.runs
  match mwSub x.w % 4 with
  | 0 =>
    let bs := runBytes s c x.a.space rs
    (forEach (List.range es.length) (fun s i =>
      updCore s c fun k => setScale k (es.getD i 0) (fieldAt bs (8 * i) 8)) s, none)
  | 1 =>
    let k := getCore s c
    writeRuns c (winRuns x.a.space rs) (es.flatMap fun n => leBytes 8 (getScale k n).toNat) s
  | _ => (forEach es (fun s n => updCore s c fun k => setScale k n (sentWord (endOfStep (sentOf (getScale k n))))) s, none)

end Sys2Proof.Machine
end

