-- ==== Sys2Proof/Machine/CorePage.lean ====
section
/-! DEFINITION. The core register page by access units (R98, R99, R143, R475), and what a write of each unit does. -/

namespace Sys2Proof.Machine

/-! ### Access units (R475) -/

/-- The value of `n` bytes of a masked run from an offset, where all are given. -/
def unitVal (off : Nat) (data : List (Option Byte)) (u n : Nat) : Option Nat :=
  let bs := (List.range n).map fun i => if u + i < off then none else data.getD (u + i - off) none
  if bs.all (·.isSome) then some (leNat (bs.map fun b => b.getD 0)) else none

/-- Whether a masked run gives any byte of a unit. -/
def unitTouched (off : Nat) (data : List (Option Byte)) (u n : Nat) : Bool :=
  (List.range n).any fun i => decide (off ≤ u + i) && (data.getD (u + i - off) none).isSome

/-- The units a write covers, each with its value; none where it covers part of a unit (R475). `size` gives the bytes of the unit at
an offset, which divides 8. -/
def coverUnits (size : Nat → Nat) (off : Nat) (data : List (Option Byte)) : Option (List (Nat × Nat)) :=
  let words := span (off / 8) ((off + data.length + 7) / 8)
  let units := words.flatMap fun w => if size (8 * w) = 4 then [(8 * w, 4), (8 * w + 4, 4)] else [(8 * w, 8)]
  let hit := units.filter fun u => unitTouched off data u.1 u.2
  let vals := hit.filterMap fun u => (unitVal off data u.1 u.2).map fun v => (u.1, v)
  if vals.length = hit.length then some vals else none

/-- Bytes of the access unit at an offset of the core register page: 4 for a flag, else 8 (R475). -/
def pageUnit (off : Nat) : Nat := if 0x7100 ≤ off ∧ off < 0x7140 then 4 else 8

/-! ### Reads -/

/-- `CORE_STATUS` (R98). -/
def coreStatus (k : Core) : Nat :=
  k.st.code + 8 * k.abank + 16 * bit k.flt + 32 * bit k.evt + 64 * bit k.bwi + 256 * k.queue.length

/-- `CORE_CYCLE`: the cycles since the core's reset, stretched cycles included (R98). -/
def coreCycle (s : State) (c : Nat) : Nat :=
  let k := getCore s c
  if s.dev.time ≤ k.cycleBase then 0 else Config.coreCycles c k.cycleBase s.dev.time % 2 ^ 48

/-- `CORE_WIN`w (R143). -/
def winWord (w : Win) : Nat :=
  w.base + 2 ^ 16 * w.last + 2 ^ 32 * w.scope + 2 ^ 34 * bit w.isOpen + 2 ^ 35 * bit w.closing + 2 ^ 36 * bit w.held
    + 2 ^ 40 * w.epoch

/-- Window `w` of a core. -/
def getWin (k : Core) (w : Nat) : Win := smapGet {} k.wins w
/-- The core with a window changed. -/
def updWin (k : Core) (w : Nat) (f : Win → Win) : Core := { k with wins := smapUpd {} k.wins w f }

/-- The 8 bytes at an 8-byte offset of the core register page (R98). -/
def pageRead (s : State) (c u : Nat) : Nat :=
  let k := getCore s c
  if u < 0x7080 then (smapGet 0 k.areg ((u - 0x7000) / 8)).toNat
  else if u = 0x7080 then bit k.pred
  else if u = 0x7088 then k.bindSeq + 4 * bit k.bindEn
  else if u = 0x7090 then coreStatus k
  else if u = 0x7098 then coreCycle s c
  else if u = 0x70A0 then k.fault0.toNat
  else if u = 0x70A8 then k.fault1.toNat
  else if u = 0x70B0 then k.fault2.toNat
  else if u = 0x70B8 then k.events.toNat
  else if u = 0x70C0 then k.eventLast.toNat
  else if u = 0x70C8 then k.trapReg.toNat
  else if 0x7100 ≤ u ∧ u < 0x7140 then
    let f := (u - 0x7100) / 4
    (smapGet 0 k.flags f).toNat + 2 ^ 32 * (smapGet 0 k.flags (f + 1)).toNat
  else if 0x7180 ≤ u ∧ u < 0x71C0 then
    let w := getWin k ((u - 0x7180) / 16)
    if u % 16 = 0 then winWord w else w.dropCount + 2 ^ 48 * w.dropEpoch
  else if 0x7200 ≤ u ∧ u < 0x7400 then (getScale k ((u - 0x7200) / 8)).toNat
  else if 0x7400 ≤ u ∧ u < 0x7600 then
    let d := (smapGet 0 k.desc ((u - 0x7400) / 16)).toNat
    if u % 16 = 0 then natBits d 63 0 else natBits d 127 64
  else 0

/-- `n` bytes of a core's window from any offset: scratchpads and register page (R141, R475). -/
def windowBytes (s : State) (c off n : Nat) : List Byte :=
  (List.range n).map fun i =>
    let o := off + i
    if o < 0x7000 then (spmBytes s c o 1).getD 0 0
    else BitVec.ofNat 8 (pageRead s c (o / 8 * 8) / 256 ^ (o % 8) % 256)

/-! ### Writes -/

/-- A write of `CORE_BIND` (R96): it takes effect only while the core is IDLE, and else sets `CORE_STATUS.BWI`. -/
def bindWrite (v : Nat) (k : Core) : Core :=
  if k.st = .idle then { k with bindSeq := v % 4, bindEn := natBit v 2 } else { k with bwi := true }

/-- A write of one access unit of the core register page (R98): read-only units ignore it (R16). -/
def pageWrite (u v : Nat) (k : Core) : Core :=
  if u < 0x7080 then { k with areg := smapSet 0 k.areg ((u - 0x7000) / 8) (BitVec.ofNat 48 v) }
  else if u = 0x7080 then { k with pred := natBit v 0 }
  else if u = 0x7088 then bindWrite v k
  else if u = 0x7090 then { k with flt := k.flt && !natBit v 4, evt := k.evt && !natBit v 5, bwi := k.bwi && !natBit v 6 }
  else if u = 0x70B8 then { k with events := w64 v }
  else if 0x7100 ≤ u ∧ u < 0x7140 then { k with flags := smapSet 0 k.flags ((u - 0x7100) / 4) (BitVec.ofNat 16 v) }
  else if 0x7180 ≤ u ∧ u < 0x71C0 ∧ u % 16 = 8 then
    updWin k ((u - 0x7180) / 16) fun w => { w with dropCount := natBits v 47 0, dropEpoch := natBits v 55 48 }
  else if 0x7200 ≤ u ∧ u < 0x7400 then setScale k ((u - 0x7200) / 8) v
  else if 0x7400 ≤ u ∧ u < 0x7600 then
    let d := (u - 0x7400) / 16
    let old := (smapGet 0 k.desc d).toNat
    let new := if u % 16 = 0 then natBits old 127 64 * 2 ^ 64 + v % 2 ^ 64 else v % 2 ^ 64 * 2 ^ 64 + natBits old 63 0
    -- bits [63:60] are reserved and read as zero (R18, R99)
    let new' := natBits new 127 64 * 2 ^ 64 + natBits new 59 0
    { k with desc := smapSet 0 k.desc d (BitVec.ofNat 128 new') }
  else k

/-- A write into the core register page (R475): refused whole with ADDRESS where it covers part of a unit. -/
def pageWriteRange (c off : Nat) (data : List (Option Byte)) (s : State) : State × Bool :=
  match coverUnits pageUnit off data with
  | none => (s, false)
  | some us => (us.foldl (fun s u => updCore s c (pageWrite u.1 u.2)) s, true)

end Sys2Proof.Machine
end

