-- ==== Sys2Proof/Machine/Packets.lean ====
section
/-! DEFINITION. Fabric packets: sending, answers, the owner's check point (R142, R145), commits
(R146, R173) and the settling of requests at their source (R148, R162, R176). -/

namespace Sys2Proof.Machine

/-- Payload bytes counted for the cluster of a core port that sends (R178), and the fabric words, those of the 16-byte header among them (R160, R163,
R378). -/
def countTx (src : Endpoint) (n : Nat) (s : State) : State :=
  match src with
  | .core c => countAct (lciDc c) akFabric (4 + ceilDiv n 4) (updClu s (lciDc c) fun k => { k with fabTx := inc64 k.fabTx n })
  | _ => s

/-- Payload bytes counted for the cluster of a core port that accepts (R178). DESIGN CHOICE: the control packets of VC0 count nothing, for the size of their
payload is not given. -/
def countRx (dst : Endpoint) (n : Nat) (s : State) : State :=
  match dst with
  | .core c => updClu s (lciDc c) fun k => { k with fabRx := inc64 k.fabRx n }
  | _ => s

/-- A packet sent: it takes the next number and the path of its endpoints. Answers the number. -/
def sendPkt (p : Pkt) (s : State) : State × Nat :=
  let n := s.net.nextId
  let q := { p with id := n, stamp := n, hops := hopsOf p.vc p.src p.dst p.tag }
  (countTx p.src q.data.length (updNet s fun t => { t with pkts := t.pkts ++ [q], nextId := n + 1 }), n)

/-- The packet with a number. -/
def findPkt (s : State) (id : Nat) : Option Pkt := s.net.pkts.find? fun p => p.id == id
/-- The packet with a number leaves the fabric. -/
def dropPkt (id : Nat) (s : State) : State := updNet s fun t => { t with pkts := t.pkts.filter fun p => p.id != id }

/-- Whether a packet can be taken at its destination now: every hop passed, in the order of R174, and its port's turn to serve it (R161). -/
def arrived (s : State) (p : Pkt) : Bool := p.hops.isEmpty && !p.taken && inOrder s p && served s p

/-- The answer to a packet (R160), sent to its source on VC0. -/
def answerPkt (p : Pkt) (st : FabStatus) (errAddr : Nat) (s : State) : State :=
  (sendPkt { blankPkt .answer p.dst p.src 0 p.part with req := p.id, status := st, errAddr := errAddr } s).1

/-- The read response to a request (R160), on VC1. -/
def respondPkt (p : Pkt) (st : FabStatus) (errAddr : Nat) (data : List Byte) (s : State) : State :=
  (sendPkt { blankPkt .readResp p.dst p.src 1 p.part with req := p.id, status := st, errAddr := errAddr, data := data.map some } s).1

/-- The answer or response that tells a request's source a failure. -/
def failPkt (p : Pkt) (st : FabStatus) (errAddr : Nat) (s : State) : State :=
  if p.kind = .readReq then respondPkt p st errAddr [] s else answerPkt p st errAddr s

/-! ### The owner's check point (R142, R145) -/

/-- The writer's scope at the owner: 0 cluster, 1 die, 2 partition (R142). -/
def writerScope (src : Endpoint) (owner : Nat) : Nat :=
  match src with
  | .core c => if lciDc c = lciDc owner then 0 else if dcDie (lciDc c) = dcDie (lciDc owner) then 1 else 2
  | _ => 2

/-- Whether a packet of `n` bytes at a window offset lies wholly within a window's range. -/
def winHolds (w : Win) (off n : Nat) : Bool := decide (w.base ≤ off) && decide (off + n ≤ w.last + 1)

/-- How the owner classifies a packet (R145). -/
inductive Admit where
  | windows (ws : List Nat)
  /-- R142: the host or Meridian, and the owner IDLE, TRAPPED or FAULTED. -/
  | free
  /-- WINDOW_CLOSED, counted at this window. -/
  | closed (w : Nat)
  | noWindow
  /-- R138: a windowless write into a powered-down half. -/
  | address
  deriving DecidableEq, Repr

/-- The check point (R138, R142, R145): `host` for a write of the host or Meridian. -/
def checkPoint (s : State) (owner off n scope : Nat) (host : Bool) : Admit :=
  let k := getCore s owner
  let down := linesDown s owner (linesOf off n)
  if host ∧ k.st ≠ .running then (if down then .address else .free) else
  let ws := (List.range 4).filter fun i =>
    let w := getWin k i
    w.isOpen && winHolds w off n && decide (scope ≤ w.scope)
  if down then .noWindow
  else if !ws.isEmpty then .windows ws
  else
    match (List.range 4).find? fun i => let w := getWin k i; (w.held || w.closing) && winHolds w off n with
    | some i => .closed i
    | none => .noWindow

/-- A drop counted at a window (R145). -/
def countDrop (owner w : Nat) (s : State) : State :=
  updCore s owner fun k => updWin k w fun x =>
    { x with dropCount := satAdd x.dropCount 1 (2 ^ 48 - 1), dropEpoch := x.epoch }

/-- The sum of two reduction elements (R171): FP32 when `fmt` is 8, else BF16. -/
def redAdd (fmt : Nat) (a b : List Byte) : List Byte :=
  if fmt = fmFp32 then leBytes 4 (fAdd (BitVec.ofNat 32 (leNat a)) (BitVec.ofNat 32 (leNat b))).toNat
  else leBytes 2 (bfAdd (leNat a) (leNat b))

/-- A masked payload added element by element to another (R170, R171). -/
def redSum (fmt : Nat) (old new : List (Option Byte)) : List (Option Byte) :=
  let n := elemBytes fmt
  (List.range (new.length / n)).flatMap fun i =>
    let a := (old.drop (n * i)).take n
    let b := (new.drop (n * i)).take n
    if b.all (·.isSome) then (redAdd fmt (a.map fun x => x.getD 0) (b.map fun x => x.getD 0)).map some
    else b

/-- An admitted packet's line is written, or added into (R146, R173): the answer is the word that refuses it, anywhere
in the line for a reduction (R269). -/
def commitHeld (owner : Nat) (h : HeldPkt) (s : State) : State × Option Nat :=
  match h.red with
  | none => spmWrite owner h.off h.data (countAct (lciDc owner) akSpm 1 s)
  | some f =>
    let r := spmScan owner 6 [(h.off / 64 * 64, 64)] (countAct (lciDc owner) akSpm 2 s)
    match r.2 with
    | some e => (r.1, some e)
    | none =>
      let old := (spmBytes r.1 owner h.off h.data.length).map some
      spmWrite owner h.off (redSum f old h.data) r.1

/-- The running QNT whose source has a half in the PSP that a write of `n` bytes at a window offset would change (R79, R81). -/
def qntHolds (k : Core) (off n : Nat) : Option Nat :=
  (k.ops.find? fun p => p.started && mwOp p.word == ocQnt &&
    (qntPspHalves (opArgs p)).any fun r =>
      let lo := spaceBase 2 + r.base.toNat
      decide (off < lo + 1024) && decide (lo < off + n)).map (·.id)

/-- Bytes written into a core's window by its column's DMA engine or spring queue, over its vertical channel (R155); a write into a half that a running QNT reads must wait (R81, R146). -/
def outerPut (c off : Nat) (data : List (Option Byte)) (s : State) : State × Option Nat :=
  match qntHolds (getCore s c) off data.length with
  | some q => (block (.qnt c q) s, none)
  | none => spmWrite c off data (countAct (lciDc c) akVertical (ceilDiv data.length 64) (countAct (lciDc c) akSpm (ceilDiv data.length 64) s))

/-- A packet admitted at its check point: it awaits its commit (R145, R146). -/
def admitPkt (c : Nat) (p : Pkt) (ws : List Nat) (red : Option Nat) (s : State) : State :=
  let off := p.addr % 32768
  let h : HeldPkt :=
    { pid := p.id, wins := ws, off := off, data := p.data, red := red
      heldBy := qntHolds (getCore s c) off p.data.length }
  countRx (.core c) p.data.length <|
    updNet (updCore s c fun k => { k with held := k.held ++ [h] }) fun t =>
      { t with pkts := mapIf (fun q => q.id == p.id) (fun q => { q with taken := true }) t.pkts }

/-- How a write packet of an I/O port fares at its owner. -/
inductive OutEnd where
  | done (st : FabStatus) (addr : Nat)
  /-- Admitted, and answered once it has committed (R81, R146). -/
  | held (pid : Nat)
  deriving DecidableEq, Repr

/-- Whether a packet that a core admits now must wait for its commit: for a running QNT (R81), or for a packet admitted before it to one of its windows
or from its source (R146, R174). -/
def mustHold (s : State) (owner off n : Nat) (ws : List Nat) (src : Endpoint) : Bool :=
  let k := getCore s owner
  (qntHolds k off n).isSome || k.held.any fun h => h.wins.any ws.contains || (findPkt s h.pid).any fun p => p.src == src

/-- A write of the host, Meridian or a neighbour, from its I/O port, at a core's port. Register-page writes follow R475, from a neighbour or a link
chain as from the host (DESIGN CHOICE: R355 and R356 name no refusal); others the check point (R142, R145). An admitted one commits at once where
nothing stands before it, and is else held like any other (R81, R146). -/
def outsideArrive (owner off : Nat) (data : List (Option Byte)) (src : Endpoint) (s : State) : State × OutEnd :=
  if !coreLive s owner then (s, .done .resetAbort 0)
  else if 0x7000 ≤ off then
    let r := pageWriteRange owner off data s
    if r.2 then (countRx (.core owner) data.length r.1, .done .commit 0) else (r.1, .done .address (spmPa owner off))
  else if 0x7000 < off + data.length then (s, .done .address (spmPa owner off))
  else
    let take := fun (ws : List Nat) =>
      if mustHold s owner off data.length ws src then
        let n := s.net.nextId
        let p : Pkt := { blankPkt .write src (.core owner) 1 (lciPart s owner) with id := n, stamp := n, addr := spmPa owner off, data := data, scope := 2 }
        (admitPkt owner p ws none (updNet s fun t => { t with pkts := t.pkts ++ [p], nextId := n + 1 }), .held n)
      else
        let r := spmWrite owner off data (countAct (lciDc owner) akSpm 1 (countRx (.core owner) data.length s))
        match r.2 with
        | some e => (r.1, .done .busError e)
        | none => (r.1, .done .commit 0)
    match checkPoint s owner off data.length 2 (src == .leadIo) with
    | .windows ws => take ws
    | .free => take []
    | .closed w => (countDrop owner w s, .done .windowClosed (spmPa owner off))
    | .noWindow => (s, .done .noWindow (spmPa owner off))
    | .address => (s, .done .address (spmPa owner off))

/-- The same, with its way over the fabric and that of its answer (R152), as a packet of kind `kind`. -/
def outsideWrite (kind : PktKind) (owner off : Nat) (data : List (Option Byte)) (src : Endpoint) (s : State) : State × OutEnd :=
  let x := crossNow kind src (.core owner) data.length s
  if !x.2 then (x.1, .done .busError (spmPa owner off)) else
  let r := outsideArrive owner off data src x.1
  match r.2 with
  | .held pid => (r.1, .held pid)
  | .done st e =>
    let y := crossNow .answer (.core owner) src 0 r.1
    (y.1, if y.2 then .done st e else .done .busError (spmPa owner off))

/-- The R123 code of a fabric status. -/
def FabStatus.fault : FabStatus → Nat
  | .commit => 0 | .windowClosed => fcWindowClosed | .noWindow => fcNoWindow | .resetAbort => fcResetAbort
  | .busError => fcBusError | .address => fcAddress

/-! ### Settling at the source (R115, R148, R162, R176) -/

/-- Whether a core still has writes or reductions unanswered, or VST, PUT or RPUT in progress (R116, R176). -/
def writesPending (k : Core) : Bool :=
  k.out.any (fun o => o.kind != .read) || k.ops.any fun p => [ocVst, ocPut, ocRput].contains (mwOp p.word)

/-- Whether a SIG or notification can be sent: all it waits for has been answered, and nothing was dropped (R148, R176). -/
def sigReady (k : Core) (g : SigReq) : Bool :=
  !(k.ops.any fun p => g.afterOps.contains p.id) &&
  !(k.out.any fun o => o.kind != .read && (g.after.contains o.pid || g.afterOps.contains o.op))

/-- The notifications of a PUT that had a packet dropped are not sent (R148). -/
def dropNotify (op : Nat) (k : Core) : Core :=
  { k with sigs := k.sigs.filter fun g => !(g.opcode == ocPut && g.op == op) }

/-- A write or reduction of a core port is answered (R115, R148, R269). -/
def settleWrite (c req : Nat) (st : FabStatus) (errAddr : Nat) (s : State) : State :=
  match (getCore s c).out.find? fun o => o.pid == req with
  | none => s
  | some o =>
    let s1 := updCore s c fun k =>
      let k1 := { k with out := k.out.filter fun x => x.pid != req }
      if st = .commit then k1 else dropNotify o.op k1
    match st with
    | .commit => s1
    | .windowClosed => coreEvent c fcWindowClosed o.opcode s1
    | .noWindow => coreEvent c fcNoWindow o.opcode s1
    | .resetAbort => coreEvent c fcResetAbort o.opcode s1
    | .busError => stopFault c fcBusError o.opcode o.addr errAddr s1
    | .address => stopFault c fcAddress o.opcode o.addr errAddr s1

/-- A read of a core port is answered (R115, R163, R269): its data written to the local line it was reserved for. -/
def settleRead (c req : Nat) (st : FabStatus) (errAddr : Nat) (data : List (Option Byte)) (s : State) : State :=
  match (getCore s c).out.find? fun o => o.pid == req with
  | none => s
  | some o =>
    let s1 := updCore s c fun k => { k with
      out := k.out.filter fun x => x.pid != req
      ops := mapIf (fun p => p.id == o.op) (fun p => { p with waits := setDel p.waits req }) k.ops }
    match st with
    | .commit =>
      let r := spmWrite c o.loc data (countRx (.core c) data.length s1)
      match r.2 with
      | none => r.1
      | some e => stopFault c fcSpmUnc o.opcode o.addr e r.1
    | .resetAbort => coreEvent c fcResetAbort o.opcode s1
    | .busError => stopFault c fcBusError o.opcode o.addr errAddr s1
    | st => stopFault c st.fault o.opcode o.addr errAddr s1

end Sys2Proof.Machine
end

