-- ==== Sys2Proof/Machine/FarMem.lean ====
section
/-! DEFINITION. What the I/O ports send to and read from the compute and memory dies within one of their own events (R141, R142, R152, R268, R324,
R350): cut into packets, over the fabric's hops. -/

namespace Sys2Proof.Machine

/-- Whether package scratchpad addresses from `a` on, `n` bytes, name cores of a partition only. -/
def spmRangeOk (s : State) (q : Option Nat) (a n : Nat) : Bool :=
  decide (a + n ≤ 2 ^ 36) && (span (a / 32768) ((a + n - 1) / 32768 + 1)).all fun c => lciOk c && lciPart s c == q

/-- A run cut at 64-byte lines. -/
def cutLines (a n : Nat) : List (Nat × Nat) := cutEvery 64 a n

/-- The packets of a run: where each starts within the run. -/
def packetsOf (ps : List (Nat × Nat)) : List (Nat × Nat × Nat) :=
  (ps.foldl (fun (acc : Nat × List (Nat × Nat × Nat)) p =>
    (acc.1 + p.2, acc.2 ++ (cutLines p.1 p.2).map fun x => (x.1, acc.1 + (x.1 - p.1), x.2))) (0, [])).2

/-- A write packet of an I/O port at a column memory port: it merges into its word (R268). -/
def writeAtPort (src : Endpoint) (l : Nat) (data : List Byte) (s : State) : State × FabStatus × Nat :=
  let r := memStore l (data.map some) false (waitBank l src s)
  match r.2 with
  | none => (r.1, .commit, 0)
  | some e => (r.1, .busError, locPa r.1 e)

/-- One write packet to memory from an I/O port. Answers the status and the address concerned. -/
def memPacket (kind : PktKind) (src : Endpoint) (pa : Nat) (data : List Byte) (s : State) : State × FabStatus × Nat :=
  match paLoc s pa with
  | none => (s, .address, pa)
  | some l =>
    overFabric kind src (.column (locDc l)) .answer pa data.length (writeAtPort src l data) s

/-- The packets of a run as a transfer: `spm` for package scratchpad space. -/
def newJob (spm : Bool) (data : List Byte) (ps : List (Nat × Nat × Nat)) : OutJob :=
  { spm := spm, left := ps.map fun p => (p.1, bytesAt data p.2.1 p.2.2) }

/-- The answer to a packet of `n` bytes taken into account. -/
def OutJob.took (j : OutJob) (st : FabStatus) (e n : Nat) : OutJob :=
  if st = .commit then { j with done := j.done + n }
  else { j with first := match j.first with | some f => some f | none => some (st, e) }

/-- The packets of a transfer sent in address order. After its first failure the host's transfer sends no more (R324), and a neighbour's message goes
on (R350). One that its owner holds back keeps the next ones waiting. -/
def sendLeft (src : Endpoint) : List (Nat × List Byte) → OutJob → State → State × OutJob
  | [], j, s => (s, { j with left := [] })
  | (a, bs) :: ps, j, s =>
    if src = .leadIo ∧ j.first.isSome then (s, { j with left := [] }) else
    let r : State × OutEnd :=
      if j.spm then outsideWrite .write (a / 32768) (a % 32768) (bs.map some) src s
      else let x := memPacket .write src a bs s; (x.1, .done x.2.1 x.2.2)
    match r.2 with
    | .done st e => sendLeft src ps (j.took st e bs.length) r.1
    | .held pid => (r.1, { j with left := ps, wait := some (pid, bs.length) })

/-- The answer that a transfer waits for, where it has come. -/
def ackOf (s : State) (pid : Nat) : Option (FabStatus × Nat) := (s.net.acks.find? fun a => a.1 == pid).map (·.2)

/-- A transfer goes on: not before the answer that it waits for has come. -/
def runJob (src : Endpoint) (j : OutJob) (s : State) : State × OutJob :=
  match j.wait with
  | none => sendLeft src j.left j s
  | some (pid, n) =>
    match ackOf s pid with
    | none => (s, j)
    | some (st, e) =>
      let j1 := { j with wait := none }
      sendLeft src j.left (j1.took st e n) (updNet s fun t => { t with acks := t.acks.filter (·.1 != pid) })

/-- Whether a transfer can go on. -/
def jobReady (s : State) (j : OutJob) : Bool :=
  match j.wait with
  | none => true
  | some (pid, _) => (ackOf s pid).isSome

/-- Whether every packet of a transfer has been answered. -/
def OutJob.over (j : OutJob) : Bool := j.wait.isNone && j.left.isEmpty

/-! ### Broadcasts (R169, R325) -/

/-- The answer of a branch merged into its packet's. -/
def BcastJob.took (b : BcastJob) (st : FabStatus) : BcastJob :=
  if st = .commit then b else { b with st := some (b.st.getD st), bad := b.bad + 1 }

/-- A packet whose branches have all answered. -/
def BcastJob.packetEnd (b : BcastJob) : BcastJob :=
  match b.st with
  | none => { b with bytes := b.bytes + b.len }
  | some st => { b with first := some (b.first.getD (st, b.off, b.bad)), failed := b.failed + 1, st := none, bad := 0 }

/-- One packet of a broadcast at all its targets, column memory ports where `kind` is 0, else cores, each branch over its own hops. DESIGN CHOICE: the
first failing branch is the first in the order of the clusters' and cores' numbers; those whose owners hold the packet back come after the others. -/
def bcastPacket (kind off : Nat) (ts : List Nat) (data : List Byte) (b : BcastJob) (s : State) : State × BcastJob :=
  let ends := ts.map fun t => if kind = 0 then Endpoint.column t else .core t
  let s1 := forEach (ends.flatMap fun e => planesReached .broadcast .leadIo e s).eraseDups (fun s i => countPlane data.length i s) s
  ts.foldl (fun acc t =>
    let r : State × OutEnd :=
      if kind = 0 then let x := memPacket .broadcast .leadIo (locPa acc.1 (tarnLoc t off)) data acc.1; (x.1, .done x.2.1 x.2.2)
      else outsideWrite .broadcast t off (data.map some) .leadIo acc.1
    match r.2 with
    | .done st _ => (r.1, acc.2.took st)
    | .held pid => (r.1, { acc.2 with wait := acc.2.wait ++ [pid] })) (s1, b)

/-- Every packet of a broadcast, in address order, whatever the answers (R325); one that an owner holds back keeps the next ones waiting. -/
def bcastSend (kind : Nat) (ts : List Nat) : List (Nat × List Byte) → BcastJob → State → State × BcastJob
  | [], b, s => (s, { b with left := [] })
  | (off, bs) :: rest, b, s =>
    let r := bcastPacket kind off ts bs { b with left := rest, off := off, len := bs.length } s
    if r.2.wait.isEmpty then bcastSend kind ts rest r.2.packetEnd r.1 else r

/-- Whether a broadcast can go on: every branch of its packet in progress has answered. -/
def branchesDone (s : State) (b : BcastJob) : Bool := b.wait.all fun pid => (ackOf s pid).isSome

/-- A broadcast goes on. -/
def runBcast (kind : Nat) (ts : List Nat) (b : BcastJob) (s : State) : State × BcastJob :=
  if b.wait.isEmpty then bcastSend kind ts b.left b s
  else if branchesDone s b then
    let b1 := (b.wait.filterMap (ackOf s)).foldl (fun b x => b.took x.1) b
    bcastSend kind ts b.left { b1 with wait := [] }.packetEnd (updNet s fun t => { t with acks := t.acks.filter fun x => !b.wait.contains x.1 })
  else (s, b)

/-! ### Reads -/

/-- One read request at a core's port, taken within the event of the I/O port that sends it (R141, R177, R178, R269). -/
def readArrive (c off n : Nat) (s : State) : State × FabStatus × Nat :=
  if !coreLive s c then (s, .resetAbort, spmPa c off)
  else
    let r := spmScan c 6 (if off < 0x7000 then [(off, n)] else []) (countAct (lciDc c) akSpm 1 s)
    match r.2 with
    | some e => (r.1, .busError, e)
    | none => (countTx (.core c) n r.1, .commit, 0)

/-- Bytes of package scratchpad space read from an I/O port, line by line (R141): the first failure, or the bytes. -/
def spmRead (src : Endpoint) (a n : Nat) (s : State) : State × Option (FabStatus × Nat) × List Byte :=
  (cutLines a n).foldl (fun (acc : State × Option (FabStatus × Nat) × List Byte) p =>
    match acc.2.1 with
    | some _ => acc
    | none =>
      let c := p.1 / 32768
      let off := p.1 % 32768
      let r := overFabric .readReq src (.core c) .readResp (spmPa c off) p.2 (readArrive c off p.2) acc.1
      if r.2.1 = .commit then (r.1, none, acc.2.2 ++ windowBytes r.1 c off p.2)
      else (r.1, some r.2, [])) (s, none, [])

/-- Physical pieces cut at 4 KiB, where the interleaved part changes column (R192). -/
def granules (ps : List (Nat × Nat)) : List (Nat × Nat) := ps.flatMap fun p => cutEvery 4096 p.1 p.2

/-- A read request of an I/O port at a column memory port. -/
def readAtPort (src : Endpoint) (l n rq : Nat) (s : State) : State × FabStatus × Nat :=
  let r := memLoad l n rq (waitBank l src s)
  match r.2.1 with
  | none => (r.1, .commit, 0)
  | some e => (r.1, .busError, locPa r.1 e)

/-- Memory read from an I/O port, 4 KiB by 4 KiB, for requester class `rq`: the address of the first failure, and the bytes. -/
def farGranules (src : Endpoint) (rq : Nat) : List (Nat × Nat) → State → State × Option Nat × List Byte
  | [], s => (s, none, [])
  | (pa, n) :: rest, s =>
    match paLoc s pa with
    | none => (s, some pa, [])
    | some l =>
      let x := overFabric .readReq src (.column (locDc l)) .readResp pa n (readAtPort src l n rq) s
      if x.2.1 = .commit then
        let r := farGranules src rq rest x.1
        (r.1, r.2.1, memBytes x.1.mem.bytes l n ++ r.2.2)
      else (x.1, some x.2.2, [])

/-- The same for physical pieces. -/
def farLoad (src : Endpoint) (rq : Nat) (ps : List (Nat × Nat)) (s : State) : State × Option Nat × List Byte := farGranules src rq (granules ps) s

end Sys2Proof.Machine
end

