-- ==== Sys2Proof/Machine/LinkTx.lean ====
section
/-! DEFINITION. The sending side of a Rorek Link port: messages and their tags (R345, R346, R349), units and credit (R342), flits and the replay
buffer (R341, R343), and the port's events (R326, R358). -/

namespace Sys2Proof.Machine

/-! ### CRC-32C (R341) -/

/-- One bit of CRC-32C, least significant first: polynomial 0x1EDC_6F41 reflected. -/
def crcBit (c : Nat) : Nat := if c % 2 = 1 then (c / 2) ^^^ 0x82F63B78 else c / 2

/-- CRC-32C of a byte list. -/
def crc32c (bs : List Byte) : Nat :=
  (bs.foldl (fun c b => crcBit (crcBit (crcBit (crcBit (crcBit (crcBit (crcBit (crcBit (c ^^^ b.toNat))))))))) 0xFFFFFFFF) ^^^ 0xFFFFFFFF

/-! ### Messages (R346) -/

/-- The types of R346. -/
def mtPut : Nat := 1
def mtGet : Nat := 2
def mtGetResp : Nat := 3
def mtRput : Nat := 4
def mtAnswer : Nat := 5
def mtBarrier : Nat := 6
def mtTimesync : Nat := 7
def mtControl : Nat := 8

/-- The virtual channel of a message type (R342); none for a type that R346 does not define. -/
def msgVc (t : Nat) : Option Nat :=
  if t = mtAnswer ∨ t = mtBarrier ∨ t = mtTimesync ∨ t = mtControl then some 0
  else if t = mtPut ∨ t = mtGet ∨ t = mtGetResp then some 1
  else if t = mtRput then some 2 else none

/-- The fields of a message header (R346). -/
structure MsgHdr where
  type : Nat := 0
  plen : Nat := 0
  dpart : Nat := 0
  spart : Nat := 0
  mtag : Nat := 0
  dspace : Nat := 0
  notify : Bool := false
  nflag : Nat := 0
  glen : Nat := 0
  status : Nat := 0
  csub : Nat := 0
  addr : Nat := 0
  deriving DecidableEq, Repr

/-- A header as its 16 bytes. -/
def MsgHdr.bytes (h : MsgHdr) : List Byte :=
  leBytes 8 (h.type + 2 ^ 4 * h.plen + 2 ^ 10 * h.dpart + 2 ^ 13 * h.spart + 2 ^ 16 * h.mtag + 2 ^ 26 * h.dspace + 2 ^ 29 * bit h.notify
    + 2 ^ 30 * h.nflag + 2 ^ 34 * h.glen + 2 ^ 44 * h.status + 2 ^ 52 * h.csub) ++ leBytes 8 h.addr

/-- The fields of 16 header bytes. -/
def parseHdr (bs : List Byte) : MsgHdr :=
  let w := fieldAt bs 0 8
  { type := natBits w 3 0, plen := natBits w 9 4, dpart := natBits w 12 10, spart := natBits w 15 13, mtag := natBits w 25 16
    dspace := natBits w 28 26, notify := natBit w 29, nflag := natBits w 33 30, glen := natBits w 43 34, status := natBits w 51 44
    csub := natBits w 55 52, addr := fieldAt bs 8 6 }

/-- Whether 16 header bytes break R346: a reserved bit, an undefined type, or a field outside its range. -/
def hdrBad (bs : List Byte) : Bool :=
  let h := parseHdr bs
  let data := h.type == mtPut || h.type == mtRput
  let span := if data then 16 * h.plen else if h.type = mtGet then 16 * h.glen else 0
  natBits (fieldAt bs 0 8) 63 56 != 0 || fieldAt bs 14 2 != 0 || (msgVc h.type).isNone || decide (32 < h.plen)
    || (data && h.plen == 0) || (h.type == mtGet && (h.plen != 0 || h.glen == 0 || decide (32 < h.glen)))
    || ((h.type == mtAnswer || h.type == mtBarrier) && h.plen != 0) || (h.type == mtTimesync && h.plen != 2)
    || ((data || h.type == mtGet) && (h.addr % 16 != 0 || decide (4096 < h.addr % 4096 + span)))
    || ((data || h.type == mtGet) && h.dspace != 3 && h.dspace != 4)

/-! ### Units, credit and flits -/

/-- The receive buffer of a virtual channel in 16-byte units (R342). -/
def vcUnits : Nat → Nat
  | 0 => 1024 | 1 => 32768 | _ => 16384

/-- The credit a sender holds on a virtual channel, in units (R342). -/
def txCredit (p : Port) (v : Nat) : Nat := vcUnits v + 16 * smapGet 0 p.crdSeen v - smapGet 0 p.txUsed v

/-- The GCM nonce of a message (R349). -/
def linkNonce (count k : Nat) : Nat := count % 2 ^ 64 + 2 ^ 64 * k

/-- Whether a unit waits on a virtual channel with credit for it. -/
def canSend (p : Port) (v : Nat) : Bool :=
  decide (0 < txCredit p v) && (!(smapGet [] p.txCur v).isEmpty || p.txMsgs.any fun m => m.vc == v)

/-- The channel of the next unit: VC0 first, then VC1 and VC2 in turn (R342). -/
def nextVc (p : Port) : Option Nat :=
  if canSend p 0 then some 0
  else if canSend p 1 && (p.txLast == 2 || !canSend p 2) then some 1
  else if canSend p 2 then some 2 else none

/-- A message's payload as its first unit leaves (R357): a TIMESYNC carries the time base of that moment. -/
def stamped (now : Nat) (m : OutMsg) : List Byte :=
  if (parseHdr m.hdr).type = mtTimesync then leBytes 8 now ++ m.payload.drop 8 else m.payload

/-- The units of a message as they are sent by port `k` (R345, R349), and the port after it: a tagged message takes the next count. -/
def sealMsg (now k : Nat) (m : OutMsg) (p : Port) : Port × List (List Byte) :=
  if m.tagged then
    let c := gcmSeal p.keyTx (linkNonce p.txCount k) m.hdr (stamped now m)
    ({ p with txCount := p.txCount + 1 }, groupsOf 16 (m.hdr ++ c.1 ++ c.2))
  else (p, groupsOf 16 (m.hdr ++ stamped now m))

/-- The next message of a virtual channel begun where none is in progress. -/
def loadVc (now k v : Nat) (p : Port) : Port :=
  if !(smapGet [] p.txCur v).isEmpty then p else
  match takeOut (fun m => m.vc == v) p.txMsgs with
  | none => p
  | some (m, rest) =>
    let r := sealMsg now k m { p with txMsgs := rest }
    { r.1 with txCur := smapSet [] r.1.txCur v r.2 }

/-- Units taken for one flit, at most `n`, in order, each with its channel. -/
def takeUnits (now k : Nat) : Nat → Port → Port × List (Nat × List Byte)
  | 0, p => (p, [])
  | n + 1, p =>
    match nextVc p with
    | none => (p, [])
    | some v =>
      let p1 := loadVc now k v p
      match smapGet [] p1.txCur v with
      | [] => (p1, [])
      | u :: us =>
        let r := takeUnits now k n { p1 with
          txCur := smapSet [] p1.txCur v us
          txUsed := smapUpd 0 p1.txUsed v (· + 1)
          txLast := if v = 0 then p1.txLast else v }
        (r.1, (v, u) :: r.2)

/-- The credit field of a virtual channel (R342). -/
def crdField (p : Port) (v : Nat) : Nat := smapGet 0 p.rxFreed v / 16 % 4096

/-- The first 12 bytes of a flit (R341), with the fields that hold at its sending. -/
def flitHead (p : Port) (data : Bool) (seq : Nat) (vcs : List Nat) : List Byte :=
  let umap := (List.range 15).foldl (fun m u => m + 4 ^ u * vcs.getD u 3) 0
  leBytes 12 (bit data + 2 * seq + 2 ^ 13 * p.ack + 2 ^ 25 * bit p.nak + 2 ^ 26 * umap + 2 ^ 56 * crdField p 0 + 2 ^ 68 * crdField p 1
    + 2 ^ 80 * crdField p 2)

/-- A flit whole: 252 bytes and their CRC (R341). -/
def withCrc (body : List Byte) : List Byte := body ++ leBytes 4 (crc32c body)

/-- The bytes of 15 units, idle ones zero. -/
def unitBytes (us : List (Nat × List Byte)) : List Byte :=
  (List.range 15).flatMap fun i => bytesAt ((us.getD i (3, [])).2) 0 16

/-- Data flits outstanding (R343). -/
def outstanding (p : Port) : Nat := p.replay.length

/-- A data flit sent by port `k` where units wait, credit is held and fewer than 2,048 flits are unacknowledged (R342, R343). -/
def sendFlit (now k : Nat) (p : Port) : Port × Bool :=
  if 2048 ≤ outstanding p then (p, false) else
  let r := takeUnits now k 15 p
  if r.2.isEmpty then (p, false) else
  let body := flitHead r.1 true r.1.txSeq (r.2.map (·.1)) ++ unitBytes r.2
  ({ r.1 with
      txSeq := (r.1.txSeq + 1) % 4096
      replay := r.1.replay ++ [⟨r.1.txSeq, body⟩]
      txFlits := r.1.txFlits + 1
      nak := false
      txOut := r.1.txOut ++ [withCrc body] }, true)

/-- Data flits sent one after another (the fuel bounds them). -/
def sendFlits (now k : Nat) : Nat → Port → Port
  | 0, p => p
  | n + 1, p =>
    let r := sendFlit now k p
    if r.2 then sendFlits now k n r.1 else p

/-- Whether the link layer of a port sends data flits now: not in RETRAIN (R340). -/
def linkUp (p : Port) : Bool := p.st == .securing || p.st == .active

/-- All that can be sent at time base `now` is sent. -/
def pumpPort (now k : Nat) (p : Port) : Port := if linkUp p then sendFlits now k (35 * p.txMsgs.length + 103) p else p

/-- A null flit, which carries ACK, NAK and credit (R341). -/
def sendNull (p : Port) : Port := { p with nak := false, txOut := p.txOut ++ [withCrc (flitHead p false 0 [] ++ List.replicate 240 0)] }

/-- A flit sent again, with the fields that hold now. -/
def flitAgain (p : Port) (f : SentFlit) : List Byte :=
  let umap := natBits (leNat (f.body.take 12)) 55 26
  withCrc (flitHead p true f.seq ((List.range 15).map fun u => umap / 4 ^ u % 4) ++ f.body.drop 12)

/-- The replay buffer sent again from its oldest flit; a NAK that is due goes with the first flit alone (R343). -/
def replayPort (p : Port) : Port :=
  { p with
    replays := p.replays + 1
    replayRun := p.replayRun + 1
    nak := false
    txOut := p.txOut ++ (p.replay.take 1).map (flitAgain p) ++ (p.replay.drop 1).map (flitAgain { p with nak := false }) }

/-- A message sent on a port (R345, R349): it carries a tag once FINISH has been sent, FINISH included. -/
def sendMsg (k : Nat) (h : MsgHdr) (payload : List Byte) (s : State) : State :=
  updPort s k fun p => pumpPort s.dev.time k { p with
    txMsgs := p.txMsgs ++ [⟨(msgVc h.type).getD 0, p.finSent, h.bytes, payload⟩]
    txBytes := inc64 p.txBytes payload.length }

/-- An ANSWER to a neighbour's request (R347, R350). -/
def sendAnswer (k dpart spart mtag status : Nat) (s : State) : State :=
  sendMsg k { type := mtAnswer, dpart := spart, spart := dpart, mtag := mtag, status := status } [] s

/-- Requests of a partition no longer awaited: their tags stay taken until they are answered (R355, R356). -/
def orphanReqs (q : Nat) (rs : List LinkReq) : List LinkReq := mapIf (fun r => r.part == q) (fun r => { r with part := 6 }) rs

/-! ### Status and events (R326, R358) -/

/-- `LNK_STAT.STATE`'s encoding (R338). -/
def PortSt.code : PortSt → Nat
  | .disabled => 0 | .down => 1 | .training => 2 | .testing => 3 | .securing => 4 | .active => 5 | .retrain => 6

/-- `LNK_STAT` (R358). -/
def lnkStat (p : Port) : Nat :=
  p.st.code + 2 ^ 3 * p.width + 2 ^ 8 * p.reason + 2 ^ 16 * p.txmap + 2 ^ 68 * p.rxmap + 2 ^ 120 * p.peer + 2 ^ 184 * p.pport

/-- A LINK event (R326): `kind` 0 for a state change, 1 for a chain error. -/
def linkEvent (k kind part code desc : Nat) (s : State) : State :=
  let p := getPort s k
  raiseEvent 0x010B 0 .device
    (mkResult [(0, 1, k), (1, 1, kind), (2, 1, part), (3, 1, code), (4, 2, lnkStat p % 65536), (8, 8, desc), (16, 8, p.txmap), (24, 8, p.rxmap)]) s

end Sys2Proof.Machine
end

