-- ==== Sys2Proof/Machine/LinkRec.lean ====
section
/-! DEFINITION. The link page (R354, R420), and the status record that a port writes there (R356). -/

namespace Sys2Proof.Machine

/-- The link page (R354). -/
def linkPage : Nat := 0xFFFF_FFFF_0000

/-- The pages of a local range translated by a port's unit, without the EXT requirement; spring pages are refused (R217, R354). -/
def linkXl (k q : Nat) (wr : Bool) : List (Nat × Nat) → State → State × RangeEnd
  | [], s => (s, .ok [])
  | (va, n) :: rest, s =>
    let r := xlNow (.portDie (k / 2)) (some q) va s
    match r.2 with
    | .fault => (r.1, .bad fcPageFault va)
    | .busError a => (r.1, .bad fcBusError a)
    | .ok t =>
      if (wr && !t.w) || t.spr then (r.1, .bad fcPermission va)
      else
        let r2 := linkXl k q wr rest r.1
        match r2.2 with
        | .ok ps => (r2.1, .ok ((t.at va, n) :: ps))
        | e => (r2.1, e)

/-- The encoding of a chain's state (R356). -/
def ChainSt.code : ChainSt → Nat
  | .idle => 0 | .running => 1 | .waiting => 2 | .ended => 3 | .error => 4

/-- The chain of a partition on a port. -/
def getChain (s : State) (k q : Nat) : Chain := smapGet {} (getPort s k).chains q
/-- The state with a chain changed. -/
def updChain (s : State) (k q : Nat) (f : Chain → Chain) : State := updPort s k fun p => { p with chains := smapUpd {} p.chains q f }

/-- The status record written (R356), if the link page is writable. DESIGN CHOICE: the port does not wait for it, so that a bank which a spring step
holds (R225) takes it within the event that ends or moves the chain, and an output of the fabric with packets of others before it lets it pass (R161). -/
def chainRecord (k q : Nat) (s : State) : State :=
  let c := getChain s k q
  let a := linkPage + 0x40 + 16 * k
  let r := linkXl k q true [(a, 16)] s
  let t := match r.2 with
    | .bad _ _ => r.1
    | .ok ps => (runJob (.link k) (newJob false (leBytes 8 (c.st.code + 256 * c.code) ++ leBytes 8 (c.descAddr % 2 ^ 48)) (packetsOf ps)) r.1).1
  { t with blocked := s.blocked }

end Sys2Proof.Machine
end

