-- ==== Sys2Proof/Machine/VectorOps.lean ====
section
/-! DEFINITION. What the vector unit does (R113), and FIL and CPY (R114). -/

namespace Sys2Proof.Machine

/-- The elements of a region's bytes, as exact values (R113). -/
def floatsOf (fmt : Nat) (bs : List Byte) : List FVal :=
  let n := elemBytes fmt
  (groupsOf n bs).map fun g => if fmt = fmBf16 then decodeF bf16 (leNat g) else f32 (BitVec.ofNat 32 (leNat g))

/-- The elements of runs of a local region. -/
def readFloats (s : State) (c : Nat) (r : Region) (rs : Runs) : List FVal := floatsOf r.fmt (runBytes s c r.space rs)

/-- A value rounded once to FP32 or BF16, as bytes (R113). -/
def floatBytes (fmt : Nat) (v : FVal) : List Byte :=
  if fmt = fmBf16 then leBytes 2 (encodeF bf16 v) else leBytes 4 (encodeF fp32 v)

/-- An exact value as the FP32 word it stands for. -/
def asF32 (v : FVal) : W32 := toF32 v

/-- VOP's sub-op on one element: operands a, b and the prior destination d (R113). -/
def vopElem (sub : Nat) (a b d : FVal) : FVal :=
  match sub % 16 with
  | 0 => vAdd a b
  | 1 => vMul a b
  | 2 => vAdd (vMul a b) d
  | 3 => vMax a b
  | 4 => f32 (fExp2 (asF32 a))
  | 5 => f32 (fRsqrt (asF32 a))
  | 6 => f32 (fRecip (asF32 a))
  | _ => a

/-- VOP (R113). DESIGN CHOICE: the result is as if every source were read before anything is written, also where DC overlaps DA or DB at an
offset, of which R113 says nothing. -/
def vopRun (c : Nat) (x : Args) (s : State) : State × Option Nat :=
  let sub := mwSub x.w
  let n := x.c.elems
  let as := readFloats s c x.a x.a.runs
  let bs :=
    if vopUnary sub then []
    else if natBit sub 6 then List.replicate n (f32 (BitVec.ofNat 32 (mwImm x.w)))
    else
      let v := readFloats s c x.b x.b.runs
      if natBit sub 7 then v.flatMap (List.replicate x.c.ext0) else v
  let ds := if sub % 16 = 2 then readFloats s c x.c x.c.runs else []
  let out := (List.range n).flatMap fun i =>
    floatBytes x.c.fmt (vopElem sub (as.getD i .nan) (bs.getD i .nan) (ds.getD i .nan))
  writeRuns c (winRuns x.c.space x.c.runs) out s

/-- One level of the pairwise tree (R113). -/
def pairUp (f : W32 → W32 → W32) : List W32 → List W32
  | a :: b :: xs => f a b :: pairUp f xs
  | xs => xs

/-- The reduction of a row: 16 lanes in ascending order, then the tree (R113). -/
def laneReduce (f : W32 → W32 → W32) (start : W32) (vs : List W32) : W32 :=
  let lanes := (List.range 16).map fun l =>
    (List.range (ceilDiv (vs.length - l) 16)).foldl (fun acc i => f acc (vs.getD (l + 16 * i) 0)) start
  (pairUp f (pairUp f (pairUp f (pairUp f lanes)))).getD 0 start

/-- The largest value of a row (R113). -/
def rowMax (vs : List W32) : W32 := laneReduce fMax fNegInf vs
/-- The sum of a row (R113). -/
def rowSum (vs : List W32) : W32 := laneReduce fAdd 0 vs

/-- FP32 words as they stand in memory, BF16 elements widened exactly. -/
def wordsOf (fmt : Nat) (bs : List Byte) : List W32 :=
  (groupsOf (elemBytes fmt) bs).map fun g => if fmt = fmBf16 then bfToF32 (leNat g) else BitVec.ofNat 32 (leNat g)

/-- The rows of a region as FP32 words. -/
def readRows (s : State) (c : Nat) (r : Region) : List (List W32) :=
  r.runs.map fun x => wordsOf r.fmt (runBytes s c r.space [x])

/-- VRED (R113). -/
def vredRun (c : Nat) (x : Args) (s : State) : State × Option Nat :=
  let out := (readRows s c x.a).map fun row => if natBit (mwSub x.w) 0 then rowSum row else rowMax row
  writeRuns c (winRuns x.c.space (takeRuns (4 * x.a.ext1) x.c.runs)) (out.flatMap fun v => leBytes 4 v.toNat) s

/-- The statistics of a region: 16 maxima, then 16 sums (R113). -/
def readStats (s : State) (c : Nat) (r : Region) : List W32 × List W32 :=
  let v := wordsOf fmFp32 (runBytes s c r.space (statRuns r))
  (v.take 16, v.drop 16)

/-- Statistics as bytes. -/
def statBytes (m l : List W32) : List Byte := (m ++ l).flatMap fun v => leBytes 4 v.toNat

/-- `a − b` rounded to FP32. -/
def fSub (a b : W32) : W32 := fAdd a (fNeg b)

/-- One row of ASM's step: scores, maximum, sum and output after it (R113). DESIGN CHOICE: l × c + rowsum is rounded once for the product and once
for the sum, where R113 does not say whether the core fuses the two. -/
def asmStep (sc : List W32) (m l : W32) (o : List W32) : List W32 × W32 × W32 × List W32 :=
  let mn := fMax m (rowMax sc)
  if mn = fNegInf then (sc.map fun _ => 0, m, l, o) else
  let e := fExp2 (fSub m mn)
  let sc' := sc.map fun v => fExp2 (fSub v mn)
  (sc', mn, fAdd (fMul l e) (rowSum sc'), o.map fun v => fMul v e)

/-- One row of ASM's merge (R113). DESIGN CHOICE: every product and every sum is rounded by itself, as in the step form. -/
def asmMerge (m l mp lp : W32) (o op : List W32) : W32 × W32 × List W32 :=
  if m = fNegInf ∧ mp = fNegInf then (m, l, o) else
  let mn := fMax m mp
  let a := fExp2 (fSub m mn)
  let b := fExp2 (fSub mp mn)
  (mn, fAdd (fMul l a) (fMul lp b), (List.range o.length).map fun i => fAdd (fMul (o.getD i 0) a) (fMul (op.getD i 0) b))

/-- Several local writes in order, stopping at a refusal. -/
def writeAll (c : Nat) : List (List (Nat × Nat) × List Byte) → State → State × Option Nat
  | [], s => (s, none)
  | (rs, bs) :: xs, s =>
    let r := writeRuns c rs bs s
    match r.2 with
    | none => writeAll c xs r.1
    | some e => (r.1, some e)

/-- FP32 words as bytes. -/
def wordsBytes (ws : List W32) : List Byte := ws.flatMap fun v => leBytes 4 v.toNat

/-- ASM (R113): step, merge or replay, row by row. -/
def asmRun (c : Nat) (x : Args) (s : State) : State × Option Nat :=
  let st := readStats s c x.b
  let m := fun i => st.1.getD i 0
  let l := fun i => st.2.getD i 0
  let aw := winRuns x.a.space x.a.runs
  let bw := winRuns x.b.space (statRuns x.b)
  let cw := winRuns x.c.space x.c.runs
  match mwSub x.w % 4 with
  | 0 =>
    let sc := readRows s c x.a
    let o := readRows s c x.c
    let rs := (List.range 16).map fun i => asmStep (sc.getD i []) (m i) (l i) (o.getD i [])
    writeAll c [(aw, rs.flatMap fun r => wordsBytes r.1), (bw, statBytes (rs.map (·.2.1)) (rs.map (·.2.2.1))),
      (cw, rs.flatMap fun r => wordsBytes r.2.2.2)] s
  | 1 =>
    let p := runBytes s c x.a.space (mergeRuns x)
    let ps := wordsOf fmFp32 (p.take 128)
    let d := x.c.ext0
    let po := wordsOf x.a.fmt (p.drop 128)
    let o := readRows s c x.c
    let rs := (List.range 16).map fun i =>
      asmMerge (m i) (l i) (ps.getD i 0) (ps.getD (16 + i) 0) (o.getD i []) ((po.drop (i * d)).take d)
    writeAll c [(bw, statBytes (rs.map (·.1)) (rs.map (·.2.1))), (cw, rs.flatMap fun r => wordsBytes r.2.2)] s
  | _ =>
    let sc := readRows s c x.a
    writeAll c [(aw, (List.range 16).flatMap fun i => wordsBytes ((sc.getD i []).map fun v => fExp2 (fSub v (m i))))] s

/-- RST's value of a row (R113): two roundings, −∞ where the sum is 0. -/
def rstVal (m l : W32) : W32 := if vIsZero (f32 l) then fNegInf else fAdd m (fLog2 l)

/-- RST (R113). -/
def rstRun (c : Nat) (x : Args) (s : State) : State × Option Nat :=
  let st := readStats s c x.a
  let out := (List.range 16).map fun i => rstVal (st.1.getD i 0) (st.2.getD i 0)
  writeRuns c (winRuns x.c.space (takeRuns 64 x.c.runs)) (wordsBytes out) s

/-- RLD (R113). -/
def rldRun (c : Nat) (x : Args) (s : State) : State × Option Nat :=
  let v := wordsOf fmFp32 (runBytes s c x.a.space (takeRuns 64 x.a.runs))
  writeRuns c (winRuns x.c.space (statRuns x.c)) (statBytes v (List.replicate 16 fOne)) s

/-- FIL (R114): the pattern restarts at each row. -/
def filRun (c : Nat) (x : Args) (s : State) : State × Option Nat :=
  let pat := leBytes 4 (mwImm x.w)
  let row := (List.range x.c.rowB).map fun k => pat.getD (k % 4) 0
  writeRuns c (winRuns x.c.space x.c.runs) ((List.range x.c.ext1).flatMap fun _ => row) s

/-- CPY (R114): as if the whole source were read before anything is written. -/
def cpyRun (c : Nat) (x : Args) (s : State) : State × Option Nat :=
  writeRuns c (winRuns x.c.space x.c.runs) (runBytes s c x.a.space x.a.runs) s

end Sys2Proof.Machine
end

