-- ==== Sys2Proof/Machine/Units.lean ====
section
/-! DEFINITION. The execution units of a core: when a macro-op starts (R44, R104 to R106), what starting it does, and the transfers of
the memory unit (R114, R115, R153, R162). -/

namespace Sys2Proof.Machine

/-! ### Macro-ops in the units -/

/-- The macro-op with a number in a core's units. -/
def findOp (k : Core) (id : Nat) : Option MOp := k.ops.find? fun p => p.id == id
/-- The state with one macro-op of a core changed. -/
def updOp (c id : Nat) (f : MOp → MOp) (s : State) : State :=
  updCore s c fun k => { k with ops := mapIf (fun p => p.id == id) f k.ops }
/-- The macro-op leaves its unit. -/
def dropOp (c id : Nat) (s : State) : State := updCore s c fun k => { k with ops := k.ops.filter fun p => p.id != id }
/-- A macro-op in a unit ends with a stopping fault (R124); no SIG or notification that waits for it is sent (R176). -/
def opFault (c : Nat) (p : MOp) (code addr : Nat) (s : State) : State :=
  stopFault c code (mwOp p.word) p.addr addr <| updCore (dropOp c p.id s) c fun k =>
    { k with sigs := k.sigs.filter fun g => !g.afterOps.contains p.id }

/-- The unit of an opcode (R104); control macro-ops have none. -/
def unitOf (o : Nat) : Option UnitKind :=
  if [ocOpa, ocAcz, ocAcs, ocAcd, ocQnt, ocScl].contains o then some .engine
  else if [ocVop, ocVred, ocAsm, ocRst, ocRld].contains o then some .vector
  else if [ocVld, ocVst, ocFil, ocCpy, ocPut, ocRput, ocGet, ocSpq].contains o then some .memory
  else none

/-- Whether two sets of lines meet. -/
def meets (xs ys : List Nat) : Bool := xs.any ys.contains

/-- A VLD in broadcast form. -/
def isBcast (w : W64) : Bool := mwOp w == ocVld && natBit (mwSub w) 1

/-- The interlock of local lines against earlier macro-ops (R106). -/
def linesClear (before : List MOp) (p : MOp) : Bool :=
  before.all fun e => !(meets e.wr p.rd || meets e.wr p.wr || meets e.rd p.wr)

/-- The bank that an ACD reads, or the banks of a QNT (R110, R111). -/
def banksRead (w : W64) : List Nat :=
  if mwOp w = ocAcd then [mwSub w % 2]
  else if mwOp w = ocQnt then [natBits (mwSub w) 1 0, natBits (mwSub w) 3 2].filter fun b => decide (b < 2)
  else []

/-- The waits on the accumulator banks (R44). -/
def banksClear (k : Core) (before : List MOp) (p : MOp) : Bool :=
  let o := mwOp p.word
  let opas := before.any fun e => mwOp e.word == ocOpa
  if o = ocAcs then !opas && before.all (fun e => (banksRead e.word).isEmpty)
  else if o = ocAcz then !opas && before.all (fun e => !(banksRead e.word).contains (mwSub p.word % 2))
  else if o = ocAcd ∨ o = ocQnt then !(opas && (banksRead p.word).contains k.abank)
  else true

/-- Whether two memory macro-ops touch a common local line or a common Tarn word (R105). -/
def shareLines (e p : MOp) : Bool := meets e.rd p.rd || meets e.rd p.wr || meets e.wr p.rd || meets e.wr p.wr || meets e.tw p.tw

/-- The order of starts within a unit (R104, R105): the memory unit starts PUT, RPUT, GET and SPQ in order among themselves, and any two of its
macro-ops that share a line or a Tarn word. -/
def unitOrder (before : List MOp) (p : MOp) : Bool :=
  match p.kind with
  | .memory =>
    let strict := fun (e : MOp) => [ocPut, ocRput, ocGet, ocSpq].contains (mwOp e.word)
    before.all fun e => e.started || e.kind != .memory || !((strict e && strict p) || shareLines e p)
  | u => before.all fun e => e.started || e.kind != u

/-- Whether a macro-op can start now. -/
def opReady (k : Core) (p : MOp) : Bool :=
  let before := k.ops.takeWhile fun e => e.id != p.id
  !p.started && linesClear before p && unitOrder before p && banksClear k before p

/-! ### Pieces of a transfer -/

/-- Bytes cut so that no piece crosses a 64-byte boundary on either side (R153, R160); the fuel is the byte count. -/
def cutPieces : Nat → Nat → Nat → Nat → List Piece
  | 0, _, _, _ => []
  | fuel + 1, loc, far, n =>
    if n = 0 then [] else
    let k := min n (min (64 - loc % 64) (64 - far % 64))
    ⟨loc, far, k, []⟩ :: cutPieces fuel (loc + k) (far + k) (n - k)

/-- Two lists of runs of equal byte count laid one on the other: (address here, address there, bytes). -/
def zipRuns : Nat → List (Nat × Nat) → List (Nat × Nat) → List (Nat × Nat × Nat)
  | 0, _, _ => []
  | _, [], _ => []
  | _, _, [] => []
  | fuel + 1, (a, n) :: as, (b, m) :: bs =>
    if n = 0 then zipRuns fuel as ((b, m) :: bs)
    else if m = 0 then zipRuns fuel ((a, n) :: as) bs
    else
      let k := min n m
      (a, b, k) :: zipRuns fuel ((a + k, n - k) :: as) ((b + k, m - k) :: bs)

/-- The physical address under the translations a macro-op holds, by 64 KiB page. -/
def opXl (p : MOp) (va : Nat) : Nat := smapGet 0 p.xl (va / 0x1_0000) + va % 0x1_0000

/-- The far region of a transfer. -/
def farRegion (p : MOp) : Region :=
  if mwOp p.word = ocVld ∨ mwOp p.word = ocGet then p.da else p.dc
/-- The local region of a transfer. -/
def nearRegion (p : MOp) : Region :=
  if mwOp p.word = ocVld ∨ mwOp p.word = ocGet then p.dc else p.da

/-- Whether a transfer writes its far side. -/
def farWrite (o : Nat) : Bool := o == ocVst || o == ocPut || o == ocRput

/-- The virtual pages of 64 KiB that a transfer's far side touches. -/
def farPages (p : MOp) : List Nat :=
  let r := farRegion p
  if r.space = 4 then
    r.runs.foldl (fun acc x => if x.2 = 0 then acc else
      (span (x.1.toNat / 0x1_0000) ((x.1.toNat + x.2 - 1) / 0x1_0000 + 1)).foldl setIns acc) []
  else []

/-- The far side's runs by physical address, cut at 64 KiB pages. -/
def farRuns (p : MOp) : List (Nat × Nat) :=
  let r := farRegion p
  if r.space = 4 then r.runs.flatMap fun x => (cutPages x.1.toNat x.2).map fun y => (opXl p y.1, y.2)
  else r.runs.map fun x => (paSpm + x.1.toNat, x.2)

/-- The pieces of a VLD that writes the skewed layout (R129, R130): element units move, headers and padding stay. -/
def skewRuns (r : Region) : List (Nat × Nat) :=
  let groups := ceilDiv r.ext0 256
  let e := if isMx8 r.fmt then 16 else 8
  let gb := groupBytes r.fmt / 16
  (List.range r.ext1).flatMap fun (row : Nat) =>
    (List.range groups).flatMap fun (g : Nat) =>
      (List.range gb).map fun (j : Nat) =>
        let unit := if j < e then elemUnit r.fmt (r.stride0 / 16) row g j else r.stride0 / 16 * row + g * gb + j
        (spaceBase r.space + (r.base + 16 * unit).toNat, 16)

/-- The far bytes of a piece, its further runs among them. -/
def pieceLen (x : Piece) : Nat := x.more.foldl (fun a r => a + r.2) x.n

/-- Pieces whose far bytes follow one another within a 64-byte line joined into one write packet: only a boundary of the destination
cuts a payload (R160). -/
def joinPieces : List Piece → List Piece
  | [] => []
  | x :: xs =>
    match joinPieces xs with
    | [] => [x]
    | y :: ys =>
      if x.far + pieceLen x = y.far ∧ x.far / 64 = y.far / 64 then { x with more := x.more ++ (y.loc, y.n) :: y.more } :: ys
      else x :: y :: ys

/-- The pieces of a transfer, in the row order of both sides (R115). -/
def formPieces (p : MOp) : List Piece :=
  let near := nearRegion p
  let nr := if mwOp p.word = ocVld ∧ natBit (mwSub p.word) 0 ∧ near.fmt ≠ fmT2 then skewRuns near
    else winRuns near.space near.runs
  let fr := farRuns p
  let ps := (zipRuns (2 * (nr.length + fr.length)) nr fr).flatMap fun x => cutPieces x.2.2 x.1 x.2.1 x.2.2
  if mwOp p.word = ocPut ∨ mwOp p.word = ocRput then joinPieces ps else ps

/-! ### Sending a transfer's packets (R115, R162) -/

/-- How many write and reduction packets of a core await an answer. -/
def outWrites (k : Core) : Nat := (k.out.filter fun o => o.kind != .read).length
/-- How many read requests of a core await a response. -/
def outReads (k : Core) : Nat := (k.out.filter fun o => o.kind == .read).length

/-- The destination endpoint of a device physical address (R156). -/
def endpointOf (s : State) (pa : Nat) : Option Endpoint :=
  match paDecode s pa with
  | .mem l => some (.column (locDc l))
  | .spm c _ => some (.core c)
  | .clu dc _ => some (.ctrl dc)
  | _ => none

/-- The virtual page whose translation a far address of a transfer comes from, and whether a 2 MiB leaf gave it (R198); none for a page of the KV
walker's. -/
def piecePage (p : MOp) (far : Nat) : Option (Nat × Bool) :=
  (p.xl.find? fun e => e.2 / 0x1_0000 == far / 0x1_0000 && !p.kvs.contains e.1).map fun e => (e.1, p.big.contains e.1)

/-- The request packet of one piece of a PUT, RPUT or GET, with the local bytes that it carries. -/
def piecePkt (c : Nat) (p : MOp) (x : Piece) (s : State) : Pkt :=
  let o := mwOp p.word
  let part := lciPart s c
  let dst := (endpointOf s x.far).getD .leadIo
  let page := piecePage p x.far
  let data := (((x.loc, x.n) :: x.more).flatMap fun r => spmBytes s c r.1 r.2).map some
  if o = ocGet then { blankPkt .readReq (.core c) dst 1 part with addr := x.far, len := x.n, page := page }
  else if o = ocRput then
    { blankPkt .reduction (.core c) dst 2 part with addr := x.far, data := data, tag := mwImm p.word % 65536, fmt := p.da.fmt, page := page }
  else { blankPkt .write (.core c) dst 1 part with addr := x.far, data := data, page := page }

/-- What the port awaits for a macro-op's packet. -/
def reqKindOf (o : Nat) : ReqKind := if o = ocGet then .read else if o = ocRput then .reduction else .write

/-- One piece of a PUT, RPUT or GET becomes a packet, whose local words pass the decoder as they are read (R264, R269): the answer is a word in error. -/
def sendPiece (c : Nat) (p : MOp) (x : Piece) (s : State) : State × Option Nat :=
  let sc := if mwOp p.word = ocGet then (s, none) else spmScan c 0 ((x.loc, x.n) :: x.more) s
  match sc.2 with
  | some e => (sc.1, some e)
  | none =>
    let r := sendPkt (piecePkt c p x sc.1) sc.1
    let s1 := updCore r.1 c fun k => { k with out := k.out ++ [⟨r.2, reqKindOf (mwOp p.word), p.id, mwOp p.word, p.addr, x.loc⟩] }
    (if mwOp p.word = ocGet then updOp c p.id (fun q => { q with waits := setIns q.waits r.2 }) s1 else s1, none)

/-- Whether a macro-op moves by fabric packets. -/
def isFabricOp (w : W64) : Bool := [ocPut, ocRput, ocGet].contains (mwOp w)

/-- Whether a packet of a transfer to an address may be sent now: no earlier transfer of the core has packets to the same endpoint unsent, or waits for
the translations that say where they go (R105, R174). -/
def inStream (s : State) (k : Core) (id far : Nat) : Bool :=
  (k.ops.takeWhile fun e => e.id != id).all fun e =>
    !(e.started && isFabricOp e.word) || (e.formed && e.todo.all fun x => endpointOf s x.far != endpointOf s far)

/-- The packets of a transfer sent while the port's limits (R162) and the stream's order (R174) allow; once all are sent the source lines are
released. -/
def sendMore : Nat → Nat → Nat → State → State
  | 0, _, _, s => s
  | fuel + 1, c, id, s =>
    match findOp (getCore s c) id with
    | none => s
    | some p =>
      match p.todo with
      | [] => if mwOp p.word = ocGet then s else updOp c id (fun q => { q with rd := [] }) s
      | x :: rest =>
        let k := getCore s c
        if (if mwOp p.word = ocGet then outReads k else outWrites k) < 64 && inStream s k id x.far then
          let r := sendPiece c p x s
          match r.2 with
          | some e => opFault c p fcSpmUnc e r.1
          | none => sendMore fuel c id (updOp c id (fun q => { q with todo := rest }) r.1)
        else s

/-- Further packets of every transfer of a core, in order. -/
def sendAll (c : Nat) (s : State) : State :=
  forEach (((getCore s c).ops.filter fun p => p.started && p.formed && isFabricOp p.word).map (·.id))
    (fun s id => sendMore 65 c id s) s

/-! ### Translating a transfer (R101, R114, R195) -/

/-- Whether a page's physical address lies in the Tarn slice of a cluster. -/
def inOwnTarn (s : State) (dc pa : Nat) : Bool :=
  match paLoc s pa with
  | some l => locIsTarn l && locDc l == dc
  | none => false

/-- The first address of a transfer's far side that lies in a 64 KiB page, in the row order of R115: the address involved in a fault of that
page's translation (R123). -/
def pageAddr (p : MOp) (pg : Nat) : Nat :=
  ((farRegion p).runs.findSome? fun x =>
    let a := max x.1.toNat (pg * 0x1_0000)
    if a < x.1.toNat + x.2 ∧ a < (pg + 1) * 0x1_0000 then some a else none).getD (pg * 0x1_0000)

/-- A translation that a transfer has obtained: kept, or refused (R101, R114, R195). DESIGN CHOICE: a VST's page that is both read-only and outside the
own slice takes PERMISSION, for no order is stated among the faults of a translation. -/
def takePage (c id pg : Nat) (t : Tlb) (s : State) : State :=
  match findOp (getCore s c) id with
  | none => s
  | some p =>
    let va := pg * 0x1_0000
    let o := mwOp p.word
    if farWrite o && !t.w then opFault c p fcPermission (pageAddr p pg) s
    else if (o == ocVld || o == ocVst) && !inOwnTarn s (lciDc c) (t.at va) then opFault c p fcNotLocal (pageAddr p pg) s
    else updOp c id (fun q => { q with
      xl := smapInsert q.xl pg (t.at va), big := if t.size = 0x1_0000 then q.big else setIns q.big pg
      kvs := if kvOwns s (lciDc c) va then setIns q.kvs pg else q.kvs }) s

/-- A translation that a transfer needs: taken, refused, or a walk begun (R196). -/
def needPage (c id pg : Nat) (s : State) : State :=
  match findOp (getCore s c) id with
  | none => s
  | some p =>
    let dc := lciDc c
    let va := pg * 0x1_0000
    let r := xlLook (.cluster dc) (lciPart s c) va s
    match r.2 with
    | .off => opFault c p fcPageFault (pageAddr p pg) r.1
    | .miss kv =>
      if r.1.walks.any fun w => w.req == .op c id && w.va == va then r.1
      else { r.1 with
        walks := r.1.walks ++ [⟨r.1.nextWalk, .cluster dc, (lciPart s c).getD 0, va, kv, .op c id⟩]
        nextWalk := r.1.nextWalk + 1 }
    | .hit t => takePage c id pg t r.1

/-- A started transfer's translations sought; once all are held its pieces are formed and sent. -/
def resolveOp (c id : Nat) (s : State) : State :=
  match findOp (getCore s c) id with
  | none => s
  | some p =>
    if !p.started || p.formed then s else
    let s1 := forEach (farPages p) (fun s pg =>
      match findOp (getCore s c) id with
      | some q => if q.xl.any (fun e => e.1 == pg) then s else needPage c id pg s
      | none => s) s
    match findOp (getCore s1 c) id with
    | none => s1
    | some q =>
      if (farPages q).all fun pg => q.xl.any fun e => e.1 == pg then
        let s2 := updOp c id (fun q => { q with todo := formPieces q, formed := true }) s1
        if isFabricOp q.word then sendAll c s2 else s2
      else s1

/-! ### Starting -/

/-- The data effect of an engine, vector, FIL or CPY macro-op. -/
def unitEffect (c : Nat) (x : Args) (s : State) : State × Option Nat :=
  let o := mwOp x.w
  if o = ocOpa then (opaRun c x s, none)
  else if o = ocAcz then (aczRun c x s, none)
  else if o = ocAcs then (acsRun c x s, none)
  else if o = ocAcd then acdRun c x s
  else if o = ocQnt then qntRun c x s
  else if o = ocScl then sclRun c x s
  else if o = ocVop then vopRun c x s
  else if o = ocVred then vredRun c x s
  else if o = ocAsm then asmRun c x s
  else if o = ocRst then rstRun c x s
  else if o = ocRld then rldRun c x s
  else if o = ocFil then filRun c x s
  else if o = ocCpy then cpyRun c x s
  else (s, none)

/-- The local sources that a macro-op reads as it starts; a transfer reads its own packet by packet. -/
def startReads (p : MOp) : List (Nat × Nat) :=
  if [ocVst, ocPut, ocRput].contains (mwOp p.word) then [] else (readsLocal (opArgs p)).flatMap fun x => winRuns x.1 x.2

/-- A macro-op starts: its local sources pass the decoder (R264, R269), then it takes effect or begins its transfer. -/
def startOp (c : Nat) (p : MOp) (s : State) : State :=
  let o := mwOp p.word
  let sc := spmScan c 0 (startReads p) s
  match sc.2 with
  | some e => opFault c p fcSpmUnc e sc.1
  | none =>
    let s1 := countAct (lciDc c) akSpm (p.rd.length + p.wr.length) (updOp c p.id (fun q => { q with started := true }) sc.1)
    if [ocVld, ocVst, ocPut, ocRput, ocGet].contains o then resolveOp c p.id s1
    else if o = ocSpq then
      let k := getCore s1 c
      let wait : SprWait :=
        { core := some c, op := p.id, flag := mwImm p.word % 16, desc := runBytes s1 c p.da.space p.da.runs, phys := false,
          recAddr := 0, after := (k.out.filter fun o => o.kind != .read).map (·.pid)
          afterOps := ((k.ops.takeWhile fun e => e.id != p.id).filter fun e => mwOp e.word == ocPut || mwOp e.word == ocRput).map (·.id)
          maddr := p.addr }
      updClu (updOp c p.id (fun q => { q with formed := true, waits := [p.id] }) s1) (lciDc c) fun q =>
        { q with spr := { q.spr with waiting := q.spr.waiting ++ [wait] } }
    else
      let r := unitEffect c (opArgs p) s1
      match r.2 with
      | some e => opFault c p fcSpmUnc e r.1
      | none => updOp c p.id (fun q => { q with formed := true }) r.1

/-- Every macro-op that can start now is started, in stream order; a broadcast VLD starts with its bus. -/
def pump (c : Nat) (s : State) : State :=
  settleCore c <| forEach ((getCore s c).ops.map (·.id)) (fun s id =>
    let k := getCore s c
    match findOp k id with
    | none => s
    | some p => if !isBcast p.word && coreLive s c && opReady k p then startOp c p s else s) s

/-! ### Dispatch (R101, R103, R104) -/

/-- Whether a core can dispatch a macro-op of an opcode now: RUNNING, live, not waiting, and that opcode first in its queue. -/
def dispatchable (s : State) (c o : Nat) : Bool :=
  let k := getCore s c
  k.st == .running && coreLive s c && k.hold.isNone &&
    match k.queue with
    | e :: _ => mwOp e.word == o
    | [] => false

/-- The queue's first macro-op taken. -/
def popQueue (c : Nat) (s : State) : State := updCore s c fun k => { k with queue := k.queue.drop 1 }

/-- Whether the PG test keeps a macro-op from any effect (R103). -/
def pgSkips (k : Core) (w : W64) : Bool := mwPg w && !k.pred && !ignoresPg w

/-- The macro-op at the front of a core's queue. -/
def frontOp (s : State) (c : Nat) : QEnt := ((getCore s c).queue.head?).getD ⟨0, 0⟩

/-- The macro-op enters its unit with its regions as they stand (R104). -/
def enterUnit (c : Nat) (u : UnitKind) (e : QEnt) (s : State) : State :=
  updCore s c fun k =>
    let x := coreArgs k e.word
    let p : MOp :=
      { id := k.nextOp, word := e.word, addr := e.addr, kind := u, started := false, formed := false
        rd := sideLines (readsLocal x), wr := sideLines (writesLocal x), tw := tarnWords x
        da := x.a, db := x.b, dc := x.c, xl := [], todo := [], waits := [] }
    { k with
      nextOp := k.nextOp + 1
      hold := if mwOp e.word = ocScl then some (.scl k.nextOp) else k.hold
      ops := k.ops ++ [p] }

/-- A macro-op of a unit dispatched: nothing while it cannot be, no effect where its PG test fails, its refusal (R101) as a stopping
fault, else into its unit, which starts what can start. -/
def dispatchUnit (c o : Nat) (s : State) : State :=
  if !dispatchable s c o then s else
  let e := frontOp s c
  let k := getCore s c
  if pgSkips k e.word then settleCore c (popQueue c s) else
  match unitOf o with
  | none => s
  | some u =>
    if 8 ≤ (k.ops.filter fun p => p.kind == u).length then s else
    match refusal s c (coreArgs k e.word) with
    | some code => stopFault c code o e.addr (refusedAddr c code (coreArgs k e.word)) (popQueue c s)
    | none => pump c (enterUnit c u e (popQueue c s))

/-- A control macro-op dispatched (R104): its effect `f` on a state from which it has been taken, or its refusal. -/
def dispatchCtrl (c o : Nat) (f : QEnt → State → State) (s : State) : State :=
  if !dispatchable s c o then s else
  let e := frontOp s c
  let k := getCore s c
  if pgSkips k e.word then settleCore c (popQueue c s) else
  match refusal s c (coreArgs k e.word) with
  | some code => stopFault c code o e.addr (refusedAddr c code (coreArgs k e.word)) (popQueue c s)
  | none => settleCore c (f e (popQueue c s))

end Sys2Proof.Machine
end

