-- ==== Sys2Proof/Machine/SpringOps.lean ====
section
/-! DEFINITION. The spring units' arithmetic and operands (R221 to R236): descriptors and their checks, placement, KVATT and the
element-wise kinds. -/

namespace Sys2Proof.Machine

/-! ### Descriptors (R221, R222, R227, R231) -/

/-- The 8 bytes of a descriptor at an offset. -/
def dq (d : List Byte) (o : Nat) : Nat := fieldAt d o 8
def sdKind (d : List Byte) : Nat := natBits (dq d 0) 7 0
def sdOrder (d : List Byte) : Bool := natBit (dq d 0) 8
def sdTag (d : List Byte) : Nat := natBits (dq d 0) 31 16
def sdStat (d : List Byte) : Nat := natBits (dq d 0) 46 32
def sdN (d : List Byte) : Nat := natBits (dq d 8) 31 0
def sdRowLen (d : List Byte) : Nat := natBits (dq d 8) 55 32
def sdNPart (d : List Byte) : Nat := max 1 (natBits (dq d 8) 59 56)
def sdPlist (d : List Byte) : Nat := natBits (dq d 32) 47 0
def sdTok (d : List Byte) : Nat := natBits (dq d 40) 20 0
def sdQh (d : List Byte) : Nat := natBits (dq d 40) 24 21
def sdQpos (d : List Byte) : Nat := natBits (dq d 40) 28 25
def sdDest (d : List Byte) : Nat := natBits (dq d 48) 14 0
/-- Rows of the query block (R227). -/
def sdRows (d : List Byte) : Nat := sdQh d * sdQpos d
/-- Slot `j`'s address and format (R231). -/
def slotVa (d : List Byte) (j : Nat) : Nat := natBits (dq d (32 + 8 * j)) 47 0
def slotFmt (d : List Byte) (j : Nat) : Nat := natBits (dq d (32 + 8 * j)) 51 48
/-- Parameter `j` (R231). -/
def sdParam (d : List Byte) (j : Nat) : W32 := BitVec.ofNat 32 (fieldAt d (80 + 4 * j) 4)

def skKvatt : Nat := 0x01
def skOpt : Nat := 0x10
def skRmsstat : Nat := 0x11
def skRmsscale : Nat := 0x12
def skAdd : Nat := 0x13
def skQuant : Nat := 0x14

/-- The statuses of a sequence (R223). -/
def ssDone : Nat := 0x00
def ssDesc : Nat := 0x01
def ssUnavailable : Nat := 0x02
def ssPageFault : Nat := 0x10
def ssPermission : Nat := 0x11
def ssNotSpring : Nat := 0x12
def ssNotLocal : Nat := 0x13
def ssBusError : Nat := 0x14
def ssDest : Nat := 0x15
def ssAborted : Nat := 0x16

/-- The formats each slot of an element-wise kind may have; 0 where it may be unused (R231). -/
def slotFormats (kind j : Nat) : List Nat :=
  let fl := [fmBf16, fmFp32]
  let out := [fmBf16, fmFp32, fmSb4, fmMx4, fmMx8e4, fmMx8e5]
  let blk := [fmSb4, fmMx4, fmMx8e4, fmMx8e5]
  if kind = skOpt then
    (match j with | 0 => [fmFp32] | 1 => [fmFp32] | 2 => [fmFp32] | 3 => [fmSb4, fmBf16, fmFp32] | 4 => 0 :: blk | _ => [0])
  else if kind = skRmsstat then (match j with | 0 => fl | 1 => [fmFp32] | _ => [0])
  else if kind = skRmsscale then (match j with | 0 => fl | 1 => [fmFp32] | 2 => fl | 3 => out | _ => [0])
  else if kind = skAdd then (match j with | 0 => fl | 1 => fl | 2 => out | _ => [0])
  else (match j with | 0 => fl | 1 => blk | _ => [0])

/-- Whether a kind has rows (R221). -/
def rowKind (kind : Nat) : Bool := kind == skRmsstat || kind == skRmsscale

/-- The form of the part that every descriptor shares (R221). -/
def headerOk (d : List Byte) : Bool :=
  natBits (dq d 0) 15 9 == 0 && natBits (dq d 0) 63 47 == 0 && sdStat d % 16 == 0 && decide (sdStat d < 0x7000) &&
    natBits (dq d 8) 63 60 == 0 && dq d 16 == 0 && dq d 24 == 0

/-- The form of a KVATT (R227). -/
def kvattOk (d : List Byte) : Bool :=
  natBits (dq d 32) 63 48 == 0 && sdPlist d % 8 == 0 && natBits (dq d 40) 63 31 == 0 &&
    decide (1 ≤ sdQh d) && decide (sdQh d ≤ 8) && decide (1 ≤ sdQpos d) && decide (sdQpos d ≤ 8) && decide (sdRows d ≤ 8) &&
    decide (sdQpos d ≤ sdTok d) && decide (sdTok d ≤ 1048576) &&
    natBits (dq d 48) 63 15 == 0 && sdDest d % 64 == 0 && decide (0x6000 ≤ sdDest d) && decide (sdDest d ≤ 0x6780) &&
    natBits (fieldAt d 56 4) 30 23 != 255 && fieldAt d 60 4 == 0 &&
    (List.range 7).all fun i => dq d (72 + 8 * i) == 0

/-- The form of an element-wise descriptor (R221, R231). -/
def elemOk (d : List Byte) : Bool :=
  let k := sdKind d
  let n := sdN d
  let blocks := (List.range 6).any fun j => isBlock (slotFmt d j)
  let np := natBits (dq d 8) 59 56
  decide (1 ≤ n) &&
    (List.range 6).all (fun j => natBits (dq d (32 + 8 * j)) 63 52 == 0 && (slotFormats k j).contains (slotFmt d j)) &&
    (!rowKind k || (decide (32 ≤ sdRowLen d) && sdRowLen d % 32 == 0 && n % sdRowLen d == 0)) &&
    (k != skRmsscale || decide (np ≤ 8)) && (!blocks || n % 32 == 0)

/-- Whether a descriptor is refused with DESC (R222). -/
def descRefused (d : List Byte) (meridian : Bool) : Bool :=
  !headerOk d ||
    (if sdKind d = skKvatt then meridian || !kvattOk d
     else if [skOpt, skRmsstat, skRmsscale, skAdd, skQuant].contains (sdKind d) then !elemOk d
     else true)

/-! ### Operand pages (R216, R222, R232, R237) -/

/-- How one range of an operand resolves: its pieces of memory, or the status of R223. -/
inductive SprEnd where
  | ok (ps : List (Nat × Nat))
  | bad (status : Nat)
  deriving DecidableEq, Repr

/-- What an operand must meet: it is written; it must be in this region (memory die), if one is given; another column of that die is
allowed (R236). -/
structure OpRule where
  wr : Bool
  region : Option Nat
  anyCol : Bool
  deriving DecidableEq, Repr

/-- Whether a piece of memory lies where an operand must (R216, R232, R236). -/
def placeOk (s : State) (dc : Nat) (r : OpRule) (pa n : Nat) : Bool :=
  let one := fun a => match paLoc s a with
    | some l => locColumnLocal s l &&
        (if r.anyCol then dcPart s (locDc l) == dcPart s dc && dcDie (locDc l) == dcDie dc else locDc l == dc) &&
        (match r.region with | some d => locMDie l == d | none => true)
    | none => false
  one pa && one (pa + n - 1)

/-- The pages of a range of an operand of a sequence, in order (R222, R223, R237). DESIGN CHOICE: a page that fails several tests ends the sequence
with PERMISSION before NOT_SPRING, and NOT_SPRING before NOT_LOCAL. DEDUCED: a Meridian submission's operands, too, lie in one region (R232), for a unit
reaches no other (R213); R237 takes the tests of translation and of SPR from them. -/
def sprPages (dc : Nat) (phys : Bool) (r : OpRule) : List (Nat × Nat) → State → State × SprEnd
  | [], s => (s, .ok [])
  | (va, n) :: rest, s =>
    let one : State × SprEnd :=
      if phys then (if placeOk s dc { r with anyCol := false } va n then (s, .ok [(va, n)]) else (s, .bad ssNotLocal))
      else
        let x := xlNow (.cluster dc) (dcPart s dc) va s
        match x.2 with
        | .fault => (x.1, .bad ssPageFault)
        | .busError _ => (x.1, .bad ssBusError)
        | .ok t =>
          if r.wr && !t.w then (x.1, .bad ssPermission)
          else if !t.spr then (x.1, .bad ssNotSpring)
          else if !placeOk x.1 dc r (t.at va) n then (x.1, .bad ssNotLocal)
          else (x.1, .ok [(t.at va, n)])
    match one.2 with
    | .bad e => (one.1, .bad e)
    | .ok ps =>
      let y := sprPages dc phys r rest one.1
      match y.2 with
      | .bad e => (y.1, .bad e)
      | .ok qs => (y.1, .ok (ps ++ qs))

/-- One range resolved. -/
def sprRange (dc : Nat) (phys : Bool) (r : OpRule) (va n : Nat) (s : State) : State × SprEnd :=
  if 2 ^ 48 < va + n then (s, .bad ssPageFault) else sprPages dc phys r (cutPages va n) s

/-- Ranges of one operand read in order: their bytes, or a status. -/
def sprRead (dc : Nat) (phys : Bool) (r : OpRule) : List (Nat × Nat) → State → State × Nat × List Byte
  | [], s => (s, 0, [])
  | (va, n) :: rest, s =>
    let x := sprRange dc phys r va n s
    match x.2 with
    | .bad e => (x.1, e, [])
    | .ok ps =>
      let y := loadPieces 5 ps x.1
      match y.2.1 with
      | some _ => (y.1, ssBusError, [])
      | none =>
        let z := sprRead dc phys r rest y.1
        (z.1, z.2.1, y.2.2 ++ z.2.2)

/-- The first word of a masked write that would refuse to merge (R268): one it covers in part and that delivers no data. -/
def mergeRefusal (s : State) (loc : Nat) (data : List (Option Byte)) : Option Nat :=
  ((cutWords loc data).find? fun c =>
    !(c.2.length == 128 && c.2.all (·.isSome)) && wordValid s (c.1 / 128) &&
      (match wordClass s (c.1 / 128) with
        | .poisoned => true
        | .uncorrectable => true
        | _ => false)).map fun c => c.1 / 128

/-- What a step writes: where, by physical pieces, and the bytes. -/
structure SprWr where
  ps : List (Nat × Nat)
  data : List (Option Byte)
  deriving DecidableEq, Repr

/-- The refusing word of any of a step's writes. -/
def writesRefused (s : State) (ws : List SprWr) : Option Nat :=
  ws.findSome? fun w =>
    (w.ps.foldl (fun (acc : Nat × Option Nat) p =>
      (acc.1 + p.2, match acc.2 with
        | some e => some e
        | none => match paLoc s p.1 with
          | some l => mergeRefusal s l ((w.data.drop acc.1).take p.2)
          | none => none)) (0, none)).2

/-- A step's writes at its end: nothing is written where any of them is refused (R223, R224, R268). -/
def sprCommit (ws : List SprWr) (s : State) : State × Nat :=
  match writesRefused s ws with
  | some w => ((readWord w 10 s).1, ssBusError)
  | none => (forEach ws (fun s w => (storePieces true w.ps w.data s).1) s, 0)

/-! ### KVATT (R227 to R230) -/

/-- The state of a unit's row: maximum, sum and outputs (R229). -/
structure RowSt where
  m : W32
  l : W32
  o : List W32
  deriving DecidableEq, Repr

/-- The state of row `r` of unit `mdie` × 4 + `u` of a sequence. -/
def rowSt (q : SprSeq) (unit r : Nat) : RowSt :=
  let i := unit * 8 + r
  { m := smapGet fNegInf q.kvM i, l := smapGet 0 q.kvL i, o := (List.range 128).map fun c => smapGet 0 q.kvO (i * 128 + c) }

/-- The sequence with a row state replaced. -/
def setRow (unit r : Nat) (x : RowSt) (q : SprSeq) : SprSeq :=
  let i := unit * 8 + r
  { q with
    kvM := smapSet fNegInf q.kvM i x.m
    kvL := smapSet 0 q.kvL i x.l
    kvO := (List.range 128).foldl (fun m c => smapSet 0 m (i * 128 + c) (x.o.getD c 0)) q.kvO }

/-- The tree over the 64 lanes, in the order of VRED (R113, R229). -/
def tree64 (xs : List W32) : W32 :=
  (pairUp fAdd (pairUp fAdd (pairUp fAdd (pairUp fAdd (pairUp fAdd (pairUp fAdd xs)))))).getD 0 0

/-- The dot product of a query row and a key (R229). -/
def kvDot (qs ks : List FVal) : W32 :=
  tree64 ((List.range 64).map fun j =>
    let p := fun i => vMul (qs.getD i .nan) (ks.getD i .nan)
    toF32 (vAdd (f32 (toF32 (vAdd (f32 0) (p j)))) (p (j + 64))))

/-- The score of a token (R229): two roundings after the dot product. -/
def kvScore (d : W32) (qx kexp : Nat) (sm : W32) : W32 :=
  fMul (toF32 (vScale (f32 d) ((qx : Int) + kexp - 254))) sm

/-- One row's turn in a step: scores of its 8 tokens, V's elements by token, and V's exponent (R229). -/
def kvRow (x : RowSt) (sc : List W32) (vs : List (List FVal)) (vexp : Nat) : RowSt :=
  let mn := fMax x.m (rowMax sc)
  if mn = fNegInf then x else
  let r := asmStep sc x.m x.l x.o
  let ps := r.1.map fun p => decodeF bf16 (encodeF bf16 (f32 p))
  let pv := fun c => (List.range 8).foldl (fun acc t => toF32 (vAdd (f32 acc) (vMul (ps.getD t .nan) ((vs.getD t []).getD c .nan)))) (0 : W32)
  { m := r.2.1
    l := r.2.2.1
    o := (List.range 128).map fun c => fAdd (r.2.2.2.getD c 0) (toF32 (vScale (f32 (pv c)) ((vexp : Int) - 127))) }

/-- The page-list entry of a page read (R227, R253), which is a core's read (R269, R326): the page's address and exponents, or a status; the bad word's address for the
submitting core (R269). -/
def kvEntry (dc : Nat) (d : List Byte) (page : Nat) (s : State) : State × Nat × Nat × Option Nat :=
  let va := sdPlist d + 8 * page
  let x := xlNow (.cluster dc) (dcPart s dc) va s
  match x.2 with
  | .fault => (x.1, ssPageFault, 0, none)
  | .busError a => (x.1, ssBusError, 0, some a)
  | .ok t =>
    if !inOwnTarn x.1 dc (t.at va) then (x.1, ssNotLocal, 0, none)
    else match paLoc x.1 (t.at va) with
      | none => (x.1, ssNotLocal, 0, none)
      | some l =>
        let r := memLoad l 8 0 x.1
        match r.2.1 with
        | some e => (r.1, ssBusError, 0, some (locPa r.1 e))
        | none => (r.1, 0, leNat r.2.2, none)

/-- A page of the run found: its page-list entry and its first physical address, or a status. -/
def kvPage (dc : Nat) (d : List Byte) (page : Nat) (s : State) : State × Nat × Nat × Nat × Option Nat :=
  let e := kvEntry dc d page s
  if e.2.1 ≠ 0 then (e.1, e.2.1, 0, 0, e.2.2.2) else
  let x := sprRange dc false { wr := false, region := none, anyCol := false } (natBits e.2.2.1 31 0 * 0x1_0000) 0x1_0000 e.1
  match x.2 with
  | .ok ((pa, _) :: _) => (x.1, 0, e.2.2.1, pa, none)
  | .ok [] => (x.1, ssPageFault, 0, 0, none)
  | .bad st => (x.1, st, 0, 0, none)

/-- The elements of FP8 bytes. -/
def fp8s (five : Bool) (bs : List Byte) : List FVal := bs.map fun b => fp8Val five b.toNat

/-- A KVATT step of a unit (R229): step `page` × 8 + group. Answers the sequence after it, a status, and the bad word of the page list. -/
def kvStep (dc unit step : Nat) (q : SprSeq) (s : State) : State × Nat × SprSeq × Option Nat :=
  let d := q.desc
  let page := step / 8
  let p := kvPage dc d page s
  if p.2.1 ≠ 0 then (p.1, p.2.1, q, p.2.2.2.2) else
  let ent := p.2.2.1
  let base := p.2.2.2.1 + 16384 * (unit % 4) + 1024 * (step % 8)
  let kr := loadPieces 5 [(base, 1024)] p.1
  match kr.2.1 with
  | some _ => (kr.1, ssBusError, q, none)
  | none =>
    let vr := loadPieces 5 [(base + 8192, 1024)] kr.1
    match vr.2.1 with
    | some _ => (vr.1, ssBusError, q, none)
    | none =>
      let five := natBit (dq d 40) 29
      let ks := (List.range 8).map fun t => fp8s five ((kr.2.2.drop (128 * t)).take 128)
      let vs := (List.range 8).map fun t => fp8s five ((vr.2.2.drop (128 * t)).take 128)
      let tok0 := 256 * page + 64 * (unit % 4) + 8 * (step % 8)
      let sm := BitVec.ofNat 32 (fieldAt d 56 4)
      let q' := (List.range (sdRows d)).foldl (fun q r =>
        let qs := fp8s (natBit (dq d 40) 30) (bytesAt d (128 + 128 * r) 128)
        let sc := (List.range 8).map fun t =>
          if tok0 + t + sdQpos d ≤ sdTok d + r / sdQh d then
            kvScore (kvDot qs (ks.getD t [])) (fieldAt d (64 + r) 1) (natBits ent 39 32) sm
          else fNegInf
        setRow unit r (kvRow (rowSt q unit r) sc vs (natBits ent 47 40)) q) q
      (vr.1, 0, { q' with kvNext := smapSet 0 q'.kvNext unit (step + 1) }, none)

/-- The steps of a KVATT: those with a token that some row sees (R228). -/
def kvSteps (d : List Byte) : Nat := ceilDiv (sdTok d) 8

/-- The merge form of ASM on one row (R113, R229). -/
def mergeRow (a b : RowSt) : RowSt :=
  let r := asmMerge a.m a.l b.m b.l a.o b.o
  { m := r.1, l := r.2.1, o := r.2.2 }

/-- Row `r` of the partial (R229): the four units of each die in ascending order, then the dies. -/
def kvFinal (mdies : Nat) (q : SprSeq) (r : Nat) : RowSt :=
  let die := fun d => (List.range 3).foldl (fun acc u => mergeRow acc (rowSt q (4 * d + u + 1) r)) (rowSt q (4 * d) r)
  (List.range (mdies - 1)).foldl (fun acc d => mergeRow acc (die (d + 1))) (die 0)

/-- The partial in its folded layout (R230). -/
def kvPartial (mdies : Nat) (q : SprSeq) : List Byte :=
  let rows := (List.range 8).map fun r =>
    let x := kvFinal mdies q r
    if r < sdRows q.desc ∧ x.m ≠ fNegInf then x else { m := fNegInf, l := 0, o := List.replicate 128 0 }
  let row := fun i => rows.getD (i % 8) { m := fNegInf, l := 0, o := [] }
  ((List.range 16).flatMap fun i => leBytes 4 (row i).m.toNat) ++ ((List.range 16).flatMap fun i => leBytes 4 (row i).l.toNat) ++
    (List.range 16).flatMap fun i => (List.range 64).flatMap fun c => leBytes 2 (encodeF bf16 (f32 ((row i).o.getD (64 * (i / 8) + c) 0)))

/-! ### The element-wise kinds (R231 to R236) -/

/-- Elements of a stripe of S0 (R224). -/
def stripeElems (d : List Byte) : Nat := 4096 / elemBytes (slotFmt d 0)

/-- The steps of an element-wise sequence. -/
def elemSteps (d : List Byte) : Nat := ceilDiv (sdN d) (stripeElems d)

/-- The bytes of an operand that hold elements `i0` to `i1` − 1: whole block groups' extent for a block format. -/
def elemRange (va f i0 i1 : Nat) : Nat × Nat :=
  if isBlock f then
    let g0 := i0 / 256
    let last := (i1 - 1) / 32
    let g1 := last / 8
    -- up to the last header of the last block
    let hd := if isMx8 f then 256 + last % 8 + 1 else if f = fmMx4 then 128 + last % 8 + 1 else 128 + 2 * (last % 8) + 2
    (va + g0 * groupBytes f, (g1 - g0) * groupBytes f + hd)
  else (va + i0 * elemBytes f, (i1 - i0) * elemBytes f)

/-- Elements `i0` to `i1` − 1 decoded from the bytes of `elemRange` (R57, R58, R60, R61), a zero with its sign (R50). -/
def elemVals (f i0 i1 : Nat) (bs : List Byte) : List FVal :=
  if isBlock f then
    (List.range (i1 - i0)).map fun j =>
      let i := i0 + j
      let g := (i / 256 - i0 / 256) * 144
      let b := i % 256 / 32
      let h := fieldAt bs (g + 128 + 2 * b) 2
      let byte := fieldAt bs (g + 16 * b + i % 32 / 2) 1
      let nib := if i % 2 = 0 then byte % 16 else byte / 16
      if h % 256 = 255 then .nan
      else .fin (natBit nib 3) (e2m1Half nib) ((h % 256 : Int) - 128 - (headDs h).getD (i % 32 / 8) 0)
  else floatsOf f bs

/-- A block that a spring unit writes, and whether it counts in SATBLK (R235). -/
def sprBlk (f : Nat) (vs : List FVal) : QBlk × Nat :=
  if vs.any isNanV then (qNan, 1)
  else if vs.any isInfV then (qSaturated f (needExp f vs) vs, 1)
  else (qPlain f (needExp f vs) vs, 0)

/-- The bytes of `elemRange` that elements from `i0` on become, and the blocks counted (R67, R235). -/
def elemOut (f i0 : Nat) (vs : List FVal) : List (Option Byte) × Nat :=
  if isBlock f then
    let n := vs.length / 32
    let bl := (List.range n).map fun b => sprBlk f ((vs.drop (32 * b)).take 32)
    let b0 := i0 % 256 / 32
    let ws := (List.range n).flatMap fun b => (qWrites f (b0 + b) (bl.getD b (qNan, 0)).1).take 2
    let len := (elemRange 0 f (i0 % 256) (i0 % 256 + vs.length)).2
    ((List.range len).map fun o =>
      (ws.find? fun w => decide (w.1 ≤ o) && decide (o < w.1 + w.2.length)).map fun w => w.2.getD (o - w.1) 0,
      bl.foldl (fun t b => t + b.2) 0)
  else ((vs.flatMap (floatBytes f)).map some, 0)

/-- One element of OPT (R233): w, m and v after it. -/
def optElem (d : List Byte) (w m v : W32) (gi : FVal) : W32 × W32 × W32 :=
  let p := sdParam d
  let g := toF32 (vMul (f32 (p 9)) gi)
  let m' := fFma (p 1) m (fMul (p 2) g)
  let v' := fFma (p 3) v (fMul (p 4) (fMul g g))
  let u := fMul (fMul (p 7) m') (fRsqrt (fFma (p 8) v' (p 5)))
  (fFma (fNeg (p 0)) (fFma (p 6) w u) w, m', v')

/-- What the stripe of a step needs and gives (R231): reads by slot, and the computation. -/
structure Stripe where
  i0 : Nat
  i1 : Nat
  deriving DecidableEq, Repr

/-- The elements of step `n`. -/
def stripeOf (d : List Byte) (n : Nat) : Stripe := { i0 := n * stripeElems d, i1 := min (sdN d) ((n + 1) * stripeElems d) }

/-- Elements `i0` to `i1` − 1 of slot `j` read. -/
def readSlot (dc : Nat) (q : SprSeq) (j i0 i1 : Nat) (r : OpRule) (s : State) : State × Nat × List FVal :=
  let x := sprRead dc q.phys r [elemRange (slotVa q.desc j) (slotFmt q.desc j) i0 i1] s
  (x.1, x.2.1, elemVals (slotFmt q.desc j) i0 i1 x.2.2)

/-- Where the output of slot `j` for elements from `i0` goes, with its bytes and the blocks counted. -/
def outSlot (dc : Nat) (q : SprSeq) (j i0 : Nat) (vs : List FVal) (r : OpRule) (s : State) : State × Nat × SprWr × Nat :=
  let f := slotFmt q.desc j
  let rg := elemRange (slotVa q.desc j) f i0 (i0 + vs.length)
  let x := sprRange dc q.phys { r with wr := true } rg.1 rg.2 s
  let o := elemOut f i0 vs
  match x.2 with
  | .bad e => (x.1, e, ⟨[], []⟩, 0)
  | .ok ps => (x.1, 0, ⟨ps, o.1⟩, o.2)

/-- Several slots read, in order: their values or the first status. -/
def readSlots (dc : Nat) (q : SprSeq) : List (Nat × Nat × Nat × OpRule) → State → State × Nat × List (List FVal)
  | [], s => (s, 0, [])
  | (j, i0, i1, r) :: rest, s =>
    let x := readSlot dc q j i0 i1 r s
    if x.2.1 ≠ 0 then (x.1, x.2.1, []) else
    let y := readSlots dc q rest x.1
    (y.1, y.2.1, x.2.2 :: y.2.2)

/-- Several outputs resolved, in order. -/
def outSlots (dc : Nat) (q : SprSeq) : List (Nat × Nat × List FVal × OpRule) → State → State × Nat × List SprWr × Nat
  | [], s => (s, 0, [], 0)
  | (j, i0, vs, r) :: rest, s =>
    let x := outSlot dc q j i0 vs r s
    if x.2.1 ≠ 0 then (x.1, x.2.1, [], 0) else
    let y := outSlots dc q rest x.1
    (y.1, y.2.1, x.2.2.1 :: y.2.2.1, x.2.2.2 + y.2.2.2)

/-- Whether every operand of S0's element size begins at S0's offset modulo 64 KiB, and S0 on 4 KiB (R232). DEDUCED: R232 gives what breaks its rules
NOT_LOCAL, S0 off its boundary among it, so that this is none of the alignments that R222 refuses with DESC. -/
def placedAlike (d : List Byte) : Bool :=
  slotVa d 0 % 4096 == 0 &&
    (List.range 6).all fun j =>
      slotFmt d j == 0 || isBlock (slotFmt d j) || elemBytes (slotFmt d j) != elemBytes (slotFmt d 0) ||
        slotVa d j % 0x1_0000 == slotVa d 0 % 0x1_0000

/-- The memory die of the region in which element 0 of S0 lies (R232). -/
def regionOf (dc : Nat) (q : SprSeq) (s : State) : State × Nat × Nat :=
  match q.region with
  | some d => (s, 0, d)
  | none =>
    let x := sprRange dc q.phys { wr := false, region := none, anyCol := false } (slotVa q.desc 0) 1 s
    match x.2 with
    | .bad e => (x.1, e, 0)
    | .ok ps => (x.1, 0, ((ps.head?.bind fun p => paLoc x.1 p.1).map locMDie).getD 0)

/-- The rows' sums of squares after a stripe (R234), and the rows it ends, each with its sum. -/
def rmsRows (d : List Byte) (t : Stripe) (sums : SMap W32) (xs : List W32) : SMap W32 × List (Nat × W32) :=
  let n := sdRowLen d
  let r0 := t.i0 / n
  let r1 := (t.i1 - 1) / n
  (span r0 (r1 + 1)).foldl (fun acc r =>
    let lo := max t.i0 (r * n)
    let hi := min t.i1 ((r + 1) * n)
    let part := ((xs.drop (lo - t.i0)).take (hi - lo)).foldl (fun a x => fAdd a (fMul x x)) (0 : W32)
    let tot := if lo = r * n then part else fAdd (smapGet 0 acc.1 r) part
    if hi = (r + 1) * n then (smapErase acc.1 r, acc.2 ++ [(r, tot)]) else (smapSet 0 acc.1 r tot, acc.2)) (sums, [])

/-- What a step has read and computed: the writes it asks for, by slot, and the row sums kept. -/
structure StepOut where
  outs : List (Nat × Nat × List FVal)
  sums : SMap W32
  deriving DecidableEq, Repr

/-- The elements of an operand that a stripe of RMSSCALE needs of its gain (R234). -/
def gainSpans (n : Nat) (t : Stripe) : List (Nat × Nat) :=
  let c0 := t.i0 % n
  let c1 := (t.i1 - 1) % n
  let r := (t.i1 - 1) / n - t.i0 / n
  if r = 0 then [(c0, c1 + 1)] else if r = 1 ∧ c1 < c0 then [(0, c1 + 1), (c0, n)] else [(0, n)]

/-- The value at a place among spans of values. -/
def spanVal (sp : List ((Nat × Nat) × List FVal)) (i : Nat) : FVal :=
  match sp.find? fun x => decide (x.1.1 ≤ i) && decide (i < x.1.2) with
  | some x => x.2.getD (i - x.1.1) .nan
  | none => .nan

/-- The reads and the arithmetic of one stripe (R233, R234). -/
def stripeWork (dc : Nat) (q : SprSeq) (t : Stripe) (r : OpRule) (s : State) : State × Nat × StepOut :=
  let d := q.desc
  let k := sdKind d
  let n := t.i1 - t.i0
  let rr := fun (wr : Bool) => { r with wr := wr }
  let none' : StepOut := ⟨[], q.sums⟩
  if k = skOpt then
    let x := readSlots dc q [(0, t.i0, t.i1, rr true), (1, t.i0, t.i1, rr true), (2, t.i0, t.i1, rr true), (3, t.i0, t.i1, rr false)] s
    if x.2.1 ≠ 0 then (x.1, x.2.1, none') else
    let v := fun j i => (x.2.2.getD j []).getD i .nan
    let e := (List.range n).map fun i => optElem d (asF32 (v 0 i)) (asF32 (v 1 i)) (asF32 (v 2 i)) (v 3 i)
    let ws := e.map fun a => f32 a.1
    (x.1, 0, ⟨[(0, t.i0, ws), (1, t.i0, e.map fun a => f32 a.2.1), (2, t.i0, e.map fun a => f32 a.2.2)]
      ++ (if slotFmt d 4 = 0 then [] else [(4, t.i0, ws)]), q.sums⟩)
  else if k = skRmsstat then
    let x := readSlots dc q [(0, t.i0, t.i1, rr false)] s
    if x.2.1 ≠ 0 then (x.1, x.2.1, none') else
    let y := rmsRows d t q.sums ((x.2.2.getD 0 []).map asF32)
    (x.1, 0, ⟨y.2.map fun e => (1, e.1, [f32 e.2]), y.1⟩)
  else if k = skRmsscale then
    let len := sdRowLen d
    let rows := sdN d / len
    let r0 := t.i0 / len
    let r1 := (t.i1 - 1) / len + 1
    let gs := gainSpans len t
    let x := readSlots dc q ((0, t.i0, t.i1, rr false) ::
      ((List.range (sdNPart d)).map fun a => (1, a * rows + r0, a * rows + r1, rr false)) ++ gs.map fun g => (2, g.1, g.2, rr false)) s
    if x.2.1 ≠ 0 then (x.1, x.2.1, none') else
    let xs := x.2.2.getD 0 []
    let gv := gs.zip (x.2.2.drop (1 + sdNPart d))
    let sumAt := fun i =>
      let at_ := fun a => asF32 ((x.2.2.getD (1 + a) []).getD i .nan)
      (List.range (sdNPart d - 1)).foldl (fun acc a => fAdd acc (at_ (a + 1))) (at_ 0)
    let sc := (List.range (r1 - r0)).map fun i => fRsqrt (fFma (sumAt i) (sdParam d 0) (sdParam d 1))
    let ys := (List.range n).map fun j =>
      let i := t.i0 + j
      vMul (f32 (fMul (asF32 (xs.getD j .nan)) (sc.getD (i / len - r0) 0))) (spanVal gv (i % len))
    (x.1, 0, ⟨[(3, t.i0, ys.map fun y => if isBlock (slotFmt d 3) then f32 (toF32 y) else y)], q.sums⟩)
  else if k = skAdd then
    let x := readSlots dc q [(0, t.i0, t.i1, rr false), (1, t.i0, t.i1, rr false)] s
    if x.2.1 ≠ 0 then (x.1, x.2.1, none') else
    let as := x.2.2.getD 0 []
    let bs := x.2.2.getD 1 []
    let ys := (List.range n).map fun i => vAdd (vMul (f32 (sdParam d 0)) (bs.getD i .nan)) (as.getD i .nan)
    (x.1, 0, ⟨[(2, t.i0, ys.map fun y => if isBlock (slotFmt d 2) then f32 (toF32 y) else y)], q.sums⟩)
  else
    let x := readSlots dc q [(0, t.i0, t.i1, rr false)] s
    if x.2.1 ≠ 0 then (x.1, x.2.1, none') else
    (x.1, 0, ⟨[(1, t.i0, x.2.2.getD 0 [])], q.sums⟩)

/-- One step of an element-wise sequence at its end (R223, R224, R231 to R236). -/
def elemStep (dc step : Nat) (q : SprSeq) (s : State) : State × Nat × SprSeq :=
  let rg := regionOf dc q s
  if rg.2.1 ≠ 0 then (rg.1, rg.2.1, q) else
  if !placedAlike q.desc then (rg.1, ssNotLocal, q) else
  let q1 := { q with region := some rg.2.2 }
  let rule : OpRule := { wr := false, region := some rg.2.2, anyCol := false }
  let w := stripeWork dc q1 (stripeOf q.desc step) rule rg.1
  if w.2.1 ≠ 0 then (w.1, w.2.1, q1) else
  let far := sdKind q.desc == skRmsstat
  let o := outSlots dc q1 (w.2.2.outs.map fun x => (x.1, x.2.1, x.2.2, { rule with anyCol := far })) w.1
  if o.2.1 ≠ 0 then (o.1, o.2.1, q1) else
  let c := sprCommit o.2.2.1 o.1
  if c.2 ≠ 0 then (c.1, c.2, q1) else
  (c.1, 0, { q1 with sums := w.2.2.sums, satblk := sat16 (q1.satblk + o.2.2.2) })

end Sys2Proof.Machine
end

