-- ==== Sys2Proof/Machine/SpringCmds.lean ====
section
/-! DEFINITION. The spring queue of a column: acceptance, permits, steps, ends and aborts (R214, R219 to R226, R237, R238). -/

namespace Sys2Proof.Machine

/-- The state with the spring queue of a column changed. -/
def updSpr (s : State) (dc : Nat) (f : SprQ → SprQ) : State := updClu s dc fun k => { k with spr := f k.spr }
/-- The spring queue of a column. -/
def getSpr (s : State) (dc : Nat) : SprQ := (getClu s dc).spr

/-- The completion record (R223). -/
def sprRecord (q : SprSeq) (status : Nat) : List Byte :=
  leBytes 8 (status + 2 ^ 8 * sdKind q.desc + 2 ^ 16 * sdTag q.desc + 2 ^ 32 * (q.steps % 2 ^ 32)) ++
    leBytes 8 (q.preempt + 2 ^ 16 * q.satblk)

/-- The SPRING_END event (R326), which names the submitting core or Meridian. -/
def sprEvent (dc : Nat) (q : SprSeq) (rec : List Byte) (s : State) : State :=
  reportFrom (.ctrl dc) 0x0106 0 (scopeOf (dcPart s dc)) (mkResult [(0, 2, dc), (4, 4, q.core.getD 0xFFFFFFFF), (16, 16, leNat rec)]) s

/-- The record written, then the flag raised or the event sent (R222, R223): nothing reaches a core in reset or switched off, a
powered-down half takes no byte (R138), and a half that a QNT reads takes its bytes after it (R81). DESIGN CHOICE: the record of a sequence that is
refused with DESC for its own STAT is written at that STAT. -/
def sprReport (dc : Nat) (q : SprSeq) (rec : List Byte) (s : State) : State :=
  match q.core with
  | some c =>
    if !coreLive s c then s else
    let s1 := if linesDown s c (linesOf (sdStat q.desc) 16) then s else (outerPut c (sdStat q.desc) (rec.map some) s).1
    incFlag c q.flag ocSpq s1
  | none =>
    sprEvent dc q rec (match paLoc s q.recAddr with
      | some l => (memStore l (rec.map some) false s).1
      | none => s)

/-- The sequences that may start now, in the order of acceptance (R220). -/
def startedSeqs : Bool → List SprSeq → List SprSeq → List SprSeq
  | _, _, [] => []
  | ok, before, q :: qs =>
    let go := q.started || (ok && (!sdOrder q.desc || before.isEmpty))
    { q with started := go } :: startedSeqs (ok && go) (before ++ [q]) qs

/-- Whether the partition of a cluster drains: no new sequence starts (R311). -/
def inDrain (s : State) (dc : Nat) : Bool :=
  match dcPart s dc with
  | some q => (getPart s q).st == .draining
  | none => false

/-- Every sequence that may start does (R220): none while its partition drains (R311). -/
def sprStart (dc : Nat) (s : State) : State := if inDrain s dc then s else updSpr s dc fun r => { r with seqs := startedSeqs true [] r.seqs }

/-- A sequence leaves the queue with its running steps. -/
def sprDrop (dc id : Nat) (s : State) : State :=
  updSpr s dc fun r => { r with seqs := r.seqs.filter (fun q => q.id != id), running := r.running.filter fun t => t.seq != id }

/-- A sequence ends (R223); DEDUCED: the host is told of a core's sequence too, since R326's event has a place for its index. -/
def sprEnd (dc : Nat) (q : SprSeq) (status : Nat) (s : State) : State :=
  let rec_ := sprRecord q status
  let s1 := sprReport dc q rec_ (updSpr (sprDrop dc q.id s) dc fun r => { r with done := r.done + 1 })
  sprStart dc (if q.core.isSome then sprEvent dc q rec_ s1 else s1)

/-! ### Acceptance (R219, R222) -/

/-- Whether a submission may be accepted: a free entry, its submitter's earlier writes all sent and answered, and none of that core's before it. -/
def sprAcceptable (s : State) (dc i : Nat) (w : SprWait) : Bool :=
  let r := getSpr s dc
  decide (r.seqs.length < 16) &&
    (match w.core with
      | some c => coreLive s c && !((getCore s c).out.any fun o => w.after.contains o.pid || w.afterOps.contains o.op) &&
          !((getCore s c).ops.any fun p => w.afterOps.contains p.id) && (r.waiting.take i).all fun x => x.core != some c
      | none => true)

/-- The sequence of a submission. -/
def seqOfWait (r : SprQ) (w : SprWait) : SprSeq :=
  { id := r.nextId, core := w.core, flag := w.flag, desc := w.desc, phys := w.phys, recAddr := w.recAddr, started := false, steps := 0
    preempt := 0, satblk := 0, kvNext := [], kvM := [], kvL := [], kvO := [], sums := [], ending := none, region := none
    maddr := w.maddr }

/-- The core's SPQ has been taken: it may complete (R122). -/
def spqTaken (w : SprWait) (s : State) : State :=
  match w.core with
  | some c => updOp c w.op (fun p => { p with waits := setDel p.waits w.op }) s
  | none => s

/-- Whether the partition of a cluster is in SALVAGE (R419). -/
def inSalvage (s : State) (dc : Nat) : Bool :=
  match dcPart s dc with
  | some q => (getPart s q).st == .salvage
  | none => false

/-- A submission accepted or refused (R219, R222, R419). DESIGN CHOICE: a descriptor that is refused on both counts is refused with DESC; and one
that a core submits while its partition drains, where no new sequence starts (R311), is refused as UNAVAILABLE. -/
def sprAccept (dc i : Nat) (s : State) : State :=
  let r := getSpr s dc
  match r.waiting[i]? with
  | none => s
  | some w =>
    if !sprAcceptable s dc i w then s else
    let q := seqOfWait r w
    let s1 := spqTaken w (updSpr s dc fun r => { r with waiting := r.waiting.eraseIdx i, nextId := r.nextId + 1 })
    let refuse := if descRefused w.desc w.core.isNone then some ssDesc
      else if !r.en || s.dev.st == .salvage || inSalvage s dc || inDrain s dc then some ssUnavailable else none
    match refuse with
    | some st =>
      let s2 := sprReport dc q (sprRecord q st) (updSpr s1 dc fun r => { r with refused := r.refused + 1 })
      (match w.core with
        | some c => coreEvent c fcSpringRefused ocSpq s2
        | none => s2)
    | none => sprStart dc (updSpr s1 dc fun r => { r with seqs := r.seqs ++ [q] })

/-- SPRING_QUEUE_ACCEPT (R219): the submission at a place among those that wait. -/
def execSpringQueueAccept (dc k : Nat) (s : State) : Host.Outcome State Fault Refusal := live s (sprAccept dc k s)

/-! ### Permits (R214, R224, R228, R232) -/

/-- The next KVATT step of a unit of a memory die: the first from `p` × 8 + `j` on whose page lies on that die (R228). A page that
cannot be found is tried, and its step finds the failure. -/
def nextKv (s : State) (dc : Nat) (d : List Byte) (mdie u : Nat) : Nat → Nat → Nat → Option Nat
  | 0, _, _ => none
  | fuel + 1, p, j =>
    if sdTok d ≤ 256 * p + 64 * u then none
    else if 8 ≤ j ∨ sdTok d ≤ 256 * p + 64 * u + 8 * j then nextKv s dc d mdie u fuel (p + 1) 0
    else
      let x := kvPage dc d p s
      let here := if x.2.1 ≠ 0 then true else (paLoc s x.2.2.2.1).map locMDie == some mdie
      if here then some (8 * p + j) else nextKv s dc d mdie u fuel (p + 1) 0

/-- The physical pieces that a range of an operand resolves to now, if it does. -/
def peekRange (s : State) (dc : Nat) (q : SprSeq) (va n : Nat) : List (Nat × Nat) :=
  match (sprRange dc q.phys { wr := false, region := none, anyCol := false } va n s).2 with
  | .ok ps => ps
  | .bad _ => []

/-- The memory die and bank of the next stripe of S0, if it can be found. -/
def stripePlace (s : State) (dc : Nat) (q : SprSeq) : Option (Nat × Nat) :=
  let t := stripeOf q.desc q.steps
  match peekRange s dc q (elemRange (slotVa q.desc 0) (slotFmt q.desc 0) t.i0 t.i1).1 1 with
  | (pa, _) :: _ => (paLoc s pa).map fun l => (locMDie l, dramBank l)
  | [] => none

/-- The elements of slot `j` that a stripe reads or writes (R231, R234): of the row kinds' sums, those of the rows that it ends or scales; of the
gain, the columns that it scales. -/
def stripeSpans (d : List Byte) (t : Stripe) (j : Nat) : List (Nat × Nat) :=
  let len := sdRowLen d
  if slotFmt d j = 0 then []
  else if sdKind d = skRmsstat ∧ j = 1 then (if t.i0 / len < t.i1 / len then [(t.i0 / len, t.i1 / len)] else [])
  else if sdKind d = skRmsscale ∧ j = 1 then
    (List.range (sdNPart d)).map fun a => (a * (sdN d / len) + t.i0 / len, a * (sdN d / len) + (t.i1 - 1) / len + 1)
  else if sdKind d = skRmsscale ∧ j = 2 then gainSpans len t
  else [(t.i0, t.i1)]

/-- The banks of a unit's own four that a stripe reads or writes (R224). -/
def stripeBanks (s : State) (dc mdie u : Nat) (q : SprSeq) : List Nat :=
  let t := stripeOf q.desc q.steps
  let ranges := (List.range 6).flatMap fun j =>
    (stripeSpans q.desc t j).map fun e => elemRange (slotVa q.desc j) (slotFmt q.desc j) e.1 e.2
  let grans := ranges.flatMap fun r => (peekRange s dc q r.1 r.2).flatMap fun p => span (p.1 / 4096) ((p.1 + p.2 - 1) / 4096 + 1)
  grans.foldl (fun acc g =>
    match paLoc s (g * 4096) with
    | some l => if locMDie l = mdie ∧ dramBank l / 4 = u ∧ !locIsTarn l then setIns acc (dramBank l) else acc
    | none => acc) []

/-- The step that a sequence has ready for a unit of a memory die, with the banks it holds. -/
def readyStep (s : State) (dc mdie u : Nat) (q : SprSeq) : Option SprStep :=
  if !q.started || q.ending.isSome then none
  else if sdKind q.desc = skKvatt then
    let i := smapGet 0 q.kvNext (4 * mdie + u)
    (nextKv s dc q.desc mdie u 4097 (i / 8) (i % 8)).map fun n =>
      { mdie := mdie, unit := u, seq := q.id, step := n, banks := (List.range 4).map (4 * u + ·), dues := [], suspended := false }
  else if (getSpr s dc).running.any fun t => t.seq == q.id then none
  else
    let at_ : Option Nat := match stripePlace s dc q with
      | some (d, b) => if d = mdie ∧ b / 4 = u then some b else none
      | none => if u = 0 then some 0 else none
    at_.map fun _ =>
      { mdie := mdie, unit := u, seq := q.id, step := q.steps, banks := stripeBanks s dc mdie u q, dues := [], suspended := false }

/-- Whether the requester at an endpoint still has the access that met a held bank: a command in progress, a message or chain of a link port, a walk or
a broadcast VLD of a cluster. -/
def stillWants (s : State) : Endpoint → Bool
  | .leadIo => s.aps.any fun e => e.2.cur.isSome
  | .link k => let p := getPort s k; !p.inbox.isEmpty || p.job.isSome || p.chains.any fun e => e.2.st == .running || e.2.st == .waiting
  | .ctrl dc => (s.walks.any fun w => w.who == .cluster dc) || (cluCores s dc).any fun c => (getCore s c).ops.any fun p => isBcast p.word && !p.started
  | _ => false

/-- Whether an access waits for a bank that a step would hold: a packet that stands at the column's memory port, the cluster's DMA engine, or another
requester that has met the bank held (R225). -/
def accessWaits (s : State) (dc : Nat) (t : SprStep) : Bool :=
  let inBank := fun (l : Nat) => !locIsTarn l && locDc l == dc && locMDie l == t.mdie && t.banks.contains (dramBank l)
  (match (getClu s dc).dma.waits with | some l => inBank l | none => false) ||
    (s.mem.waits.any fun w => inBank w.1 && stillWants s w.2) ||
    s.net.pkts.any fun p => p.dst == .column dc && arrived s p && !p.waitFill && (paLoc s p.addr).any inBank

/-- The permit of a column and die granted (R214): round-robin from the unit after the one granted last, once the accesses that wait for its banks
have been served (R225). DESIGN CHOICE: of several sequences with a step ready for that unit, the one accepted first gets it. -/
def sprGrant (dc mdie : Nat) (s : State) : State :=
  let r := getSpr s dc
  if r.running.any (fun t => t.mdie == mdie) || (getMDie s (dcDie dc) mdie).withheld || decide (s.mdies ≤ mdie) then s else
  let last := smapGet 3 r.lastUnit mdie
  let units := (List.range 4).map fun i => (last + 1 + i) % 4
  match units.findSome? fun u => r.seqs.findSome? (readyStep s dc mdie u) with
  | none => s
  | some t => if accessWaits s dc t then s else updSpr s dc fun r => { r with running := r.running ++ [t], lastUnit := smapSet 3 r.lastUnit mdie t.unit }

/-- SPRING_PERMIT_GRANT (R214). -/
def execSpringPermitGrant (dc mdie : Nat) (s : State) : Host.Outcome State Fault Refusal := live s (sprGrant dc mdie s)

/-- SPRING_STEP_RESUME (R226): the owed refreshes are done, and the step goes on with its permit; each bank's count of the step stands. -/
def execSpringStepResume (dc mdie : Nat) (s : State) : Host.Outcome State Fault Refusal :=
  live s (updSpr s dc fun r => { r with
    running := mapIf (fun t => t.mdie == mdie && t.suspended) (fun t => { t with suspended := false }) r.running })

/-! ### Steps (R223, R224) -/

/-- The work of a step at its end: the sequence after it and a status. A bad page-list word also stops the submitting core (R269). -/
def stepWork (dc : Nat) (t : SprStep) (q : SprSeq) (s : State) : State × Nat × SprSeq :=
  if sdKind q.desc = skKvatt then
    let x := kvStep dc (4 * t.mdie + t.unit) t.step q s
    let s1 := match x.2.2.2, q.core with
      | some a, some c => if coreLive x.1 c then stopFault c fcBusError ocSpq q.maddr a x.1 else x.1
      | _, _ => x.1
    (s1, x.2.1, x.2.2.1)
  else elemStep dc t.step q s

/-- Every step of a sequence is done. -/
def seqComplete (q : SprSeq) : Bool :=
  decide ((if sdKind q.desc = skKvatt then kvSteps q.desc else elemSteps q.desc) ≤ q.steps)

/-- A sequence whose steps are all done ends (R223, R230): a KVATT writes its partial, unless its destination is powered down. -/
def seqFinish (dc : Nat) (q : SprSeq) (s : State) : State :=
  match q.core with
  | some c =>
    if sdKind q.desc = skKvatt ∧ coreLive s c then
      if linesDown s c (linesOf (sdDest q.desc) 2176) then sprEnd dc q ssDest s
      else sprEnd dc q ssDone (outerPut c (sdDest q.desc) ((kvPartial s.mdies q).map some) s).1
    else sprEnd dc q ssDone s
  | none => sprEnd dc q ssDone s

/-- A sequence is to end with a status: its pre-empted steps stop at once, and it ends when its last running step does (R223, R238). The first status
stands. -/
def sprEnding (dc id status : Nat) (s : State) : State :=
  let s1 := updSpr s dc fun r => { r with
    running := r.running.filter fun t => t.seq != id || !t.suspended
    seqs := mapIf (fun y => y.id == id) (fun y => { y with ending := some (y.ending.getD status) }) r.seqs }
  if (getSpr s1 dc).running.any fun t => t.seq == id then s1 else
  match (getSpr s1 dc).seqs.find? fun y => y.id == id with
  | some q => sprEnd dc q (q.ending.getD status) s1
  | none => s1

/-- A step ends (R224): its results are written, its banks and the permit released, and its sequence goes on or ends. -/
def sprStepEnd (dc mdie : Nat) (s : State) : State :=
  let r := getSpr s dc
  match r.running.find? fun t => t.mdie == mdie && !t.suspended with
  | none => s
  | some t =>
    match r.seqs.find? fun q => q.id == t.seq with
    | none => s
    | some q =>
      let x := stepWork dc t q (countAct dc (akSpring mdie) 1 (updSpr s dc fun r => { r with running := r.running.filter fun x => x.mdie != mdie }))
      let failed := x.2.1 != 0
      let q' := { x.2.2 with steps := q.steps + bit (!failed) }
      let s1 := updSpr x.1 dc fun r => { r with steps := if failed then r.steps else r.steps + 1, seqs := r.seqs.map fun y => if y.id = q.id then q' else y }
      if failed || q.ending.isSome then sprEnding dc q.id x.2.1 s1
      else if seqComplete q' then seqFinish dc q' s1
      else s1

/-- SPRING_STEP_END (R224). -/
def execSpringStepEnd (dc mdie : Nat) (s : State) : Host.Outcome State Fault Refusal := live s (sprStepEnd dc mdie s)

/-! ### Meridian's registers (R237) and aborts (R238) -/

/-- Meridian's submission of a descriptor: it waits for acceptance like any other. -/
def sprQueue (dc : Nat) (desc : List Byte) (recAddr : Nat) (s : State) : State :=
  updSpr s dc fun r => { r with
    waiting := r.waiting ++ [{ core := none, op := 0, flag := 0, desc := desc, phys := true, recAddr := recAddr, after := [], afterOps := [], maddr := 0 }] }

/-- A write of `SPR_SUBMIT` (R237): the descriptor at a physical address of the cluster's own slice. -/
def sprSubmit (dc pa : Nat) (s : State) : State :=
  match paLoc s (pa % 2 ^ 48), paLoc s (pa % 2 ^ 48 + 127) with
  | some l, some l' =>
    if locIsTarn l && locDc l == dc && locIsTarn l' && locDc l' == dc then
      let r := memLoad l 128 5 s
      match r.2.1 with
      | none => sprQueue dc r.2.2 (pa % 2 ^ 48 + 16) r.1
      | some _ =>
        let q := seqOfWait (getSpr s dc) { core := none, op := 0, flag := 0, desc := [], phys := true, recAddr := pa % 2 ^ 48 + 16, after := [], afterOps := [], maddr := 0 }
        sprReport dc q (sprRecord q ssBusError) (updSpr r.1 dc fun x => { x with done := x.done + 1 })
    else s
  | _, _ => s

/-- SPR_SUBMIT (R237). -/
def execSprSubmit (dc pa : Nat) (s : State) : Host.Outcome State Fault Refusal :=
  live s (if cluWritable s dc then sprSubmit dc pa s else s)

/-- Sequences aborted (R238): one with steps in progress stops at their end, and any other at once. -/
def sprAbort (dc : Nat) (sel : SprSeq → Bool) (s : State) : State :=
  forEach ((getSpr s dc).seqs.filter sel) (fun s q => sprEnding dc q.id ssAborted s) s

/-- SPR_CTRL_ABORT (R238). -/
def execSprCtrlAbort (dc : Nat) (s : State) : Host.Outcome State Fault Refusal :=
  live s (if cluWritable s dc then sprAbort dc (fun _ => true) s else s)

/-- Sequences stopped by a reset (R238): their running steps end, and nothing of them reaches a core; what still waited is gone. DESIGN CHOICE: a step
whose writes would wait for another column's step (R236) writes nothing. -/
def sprStop (dc : Nat) (sel : Option Nat → Bool) (s : State) : State :=
  let s1 := forEach ((getSpr s dc).running.filter fun t => !t.suspended) (fun s t =>
    match (getSpr s dc).seqs.find? fun q => q.id == t.seq with
    | none => s
    | some q =>
      if sel q.core then
        let s0 := updSpr s dc fun r => { r with running := r.running.filter fun x => x != t }
        let x := stepWork dc t q s0
        unlessBlocked (updSpr (countAct dc (akSpring t.mdie) 1 x.1) dc fun r => { r with steps := if x.2.1 = 0 then r.steps + 1 else r.steps }) s0
      else s) s
  let ids := ((getSpr s1 dc).seqs.filter fun q => sel q.core).map (·.id)
  sprStart dc <| updSpr s1 dc fun r => { r with
    seqs := r.seqs.filter fun q => !ids.contains q.id
    running := r.running.filter fun t => !ids.contains t.seq
    waiting := r.waiting.filter fun w => !sel w.core }

end Sys2Proof.Machine
end

