-- ==== Sys2Proof/Machine/Dma.lean ====
section
/-! DEFINITION. The cluster DMA engine (R199 to R202, R268, R269), and the packets of a core's vertical channel (R153, R154). -/

namespace Sys2Proof.Machine

/-- The state with a cluster's DMA engine changed. -/
def updDma (s : State) (dc : Nat) (f : Dma → Dma) : State := updClu s dc fun k => { k with dma := f k.dma }
/-- A cluster's DMA engine. -/
def getDma (s : State) (dc : Nat) : Dma := (getClu s dc).dma

/-- `CLU_DMA_STATUS.STATE`'s encoding (R202). -/
def DmaSt.code : DmaSt → Nat
  | .idle => 0 | .running => 1 | .waiting => 2 | .ended => 3 | .error => 4

/-- `CLU_DMA_STATUS` (R202). -/
def dmaStatus (d : Dma) : Nat := d.st.code + 2 ^ 8 * d.code + 2 ^ 16 * (d.descAddr % 2 ^ 48)

/-- A descriptor in error (R202): the engine enters ERROR, and the host is told. -/
def dmaError (dc code : Nat) (s : State) : State :=
  let s1 := updDma s dc fun d => { d with st := .error, code := code, cur := none, waits := none }
  reportFrom (.ctrl dc) 0x0105 0 (scopeOf (dcPart s dc)) (mkResult [(0, 2, dc), (8, 8, dmaStatus (getDma s1 dc))]) s1

/-! ### Descriptors (R199, R200) -/

/-- A descriptor from its 64 bytes. -/
def dmaParse (b : List Byte) : DmaDesc :=
  let q := fun o => fieldAt b o 8
  { src := natBits (q 0) 47 0, sspace := natBits (q 0) 50 48, dst := natBits (q 8) 47 0, dspace := natBits (q 8) 50 48
    rowBytes := natBits (q 16) 23 0
    rows := if natBits (q 16) 39 24 = 0 then 65536 else natBits (q 16) 39 24
    fmt := natBits (q 16) 43 40, skew := natBit (q 16) 44
    sstride := signedBits (natBits (q 24) 31 0) 32, dstride := signedBits (natBits (q 24) 63 32) 32
    wcore := natBits (q 32) 9 0, wflag := natBits (q 32) 13 10, wcount := natBits (q 32) 21 14
    score := natBits (q 32) 31 22, sflag := natBits (q 32) 35 32, sen := natBit (q 32) 36
    next := natBits (q 40) 47 0, last := natBit (q 40) 48
    sadv := signedBits (natBits (q 48) 31 0) 32, dadv := signedBits (natBits (q 48) 63 32) 32
    rep := max 1 (natBits (q 56) 15 0)
    reserved := natBits (q 0) 63 51 != 0 || natBits (q 8) 63 51 != 0 || natBits (q 16) 63 45 != 0 || natBits (q 32) 63 37 != 0 ||
      natBits (q 40) 63 49 != 0 || natBits (q 56) 63 16 != 0 }

/-- A SKEW that breaks its conditions (R200). -/
def skewBad (d : DmaDesc) : Bool :=
  d.skew && !(d.sspace == 4 && d.dspace == 3 && isBlock d.fmt && d.dstride % 16 == 0 && d.rowBytes % groupBytes d.fmt == 0)

/-- What a descriptor ends with before it starts (R200). -/
def dmaCheck (d : DmaDesc) : Option Nat :=
  let sp := fun x => x == 3 || x == 4
  if d.reserved || !sp d.sspace || !sp d.dspace || decide (8 < d.fmt) || d.rowBytes == 0 || skewBad d then some fcDescInvalid
  else if (d.sspace == 3 && natBits d.src 47 36 != 0) || (d.dspace == 3 && natBits d.dst 47 36 != 0) then some fcAddress
  else none

/-- Whether every row address of an iteration lies within 48 bits (R200). -/
def rowsInRange (base : Int) (adv stride : Int) (i rows n : Nat) : Bool :=
  let a := base + i * adv
  let b := a + (rows - 1 : Nat) * stride
  decide (0 ≤ a) && decide (0 ≤ b) && decide (a + n ≤ (2 ^ 48 : Nat)) && decide (b + n ≤ (2 ^ 48 : Nat))

/-! ### Moving bytes -/

/-- Where bytes of a transfer lie. -/
inductive DmaSide where
  | dram | tarn | spm
  deriving DecidableEq, Repr

/-- The pairs that a transfer may join (R200). -/
def pairOk : DmaSide → DmaSide → Bool
  | .dram, .tarn => true
  | .tarn, .dram => true
  | .tarn, .spm => true
  | .spm, .tarn => true
  | _, _ => false

/-- How a side of a piece resolves. -/
inductive DmaEnd where
  | mem (side : DmaSide) (ps : List (Nat × Nat))
  | spm (lci off : Nat)
  | bad (code : Nat)
  deriving DecidableEq, Repr

/-- Whether the pieces all lie in a column's own memory of one kind, 4 KiB by 4 KiB (R200). -/
def ownSide (s : State) (dc : Nat) (ps : List (Nat × Nat)) : Option DmaSide :=
  let grans := ps.flatMap fun p => if p.2 = 0 then [] else (span (p.1 / 4096) ((p.1 + p.2 - 1) / 4096 + 1)).map fun g => max p.1 (g * 4096)
  let locs := grans.map (paLoc s)
  let all := fun (f : Nat → Bool) => locs.all fun l => match l with | some l => f l | none => false
  if all fun l => locDc l == dc && locIsTarn l then some .tarn
  else if all fun l => locDc l == dc && !locIsTarn l then some .dram
  else none

/-- One side of a piece of `n` bytes resolved (R195, R200, R201). -/
def dmaSide (dc space a n : Nat) (wr : Bool) (s : State) : State × DmaEnd :=
  if space = 3 then
    let c := a / 32768
    let off := a % 32768
    if !lciOk c then (s, .bad fcAddress)
    else if lciDc c ≠ dc then (s, .bad fcNotLocal)
    else if 0x7000 < off + n then (s, .bad fcAddress)
    else if !coreLive s c then (s, .bad fcResetAbort)
    else if wr && linesDown s c (linesOf off n) then (s, .bad fcSpmDown)
    else (s, .spm c off)
  else
    let r := xlRange (.cluster dc) (dcPart s dc) wr false (cutPages a n) s
    match r.2 with
    | .bad code _ => (r.1, .bad code)
    | .ok ps =>
      match ownSide r.1 dc ps with
      | some k => (r.1, .mem k ps)
      | none => (r.1, .bad fcNotLocal)

/-- The kind of a resolved side. -/
def DmaEnd.side : DmaEnd → Option DmaSide
  | .mem k _ => some k
  | .spm .. => some .spm
  | .bad _ => none

/-- The bytes of a row from its offset `o` on, with the padding of its block groups as zeros (R60). DESIGN CHOICE: the groups of a plain row are counted
from its first byte, for R200 asks for whole groups only of a skewed one. -/
def zeroPadding (f o : Nat) (bs : List Byte) : List Byte :=
  let gb := groupBytes f
  if f = fmMx4 ∨ isMx8 f then (List.range bs.length).map fun i => if gb - 8 ≤ (o + i) % gb then 0 else bs.getD i 0 else bs

/-- One piece moved, which begins `o` bytes into its row (R60, R200, R201, R268): 0, or the code it ends with. -/
def dmaPiece (dc : Nat) (d : DmaDesc) (src dst n o : Nat) (s : State) : State × Nat :=
  let a := dmaSide dc d.sspace src n false s
  match a.2 with
  | .bad c => (a.1, c)
  | from_ =>
    let b := dmaSide dc d.dspace dst n true a.1
    match b.2 with
    | .bad c => (b.1, c)
    | to_ =>
      let ok := match from_.side, to_.side with | some x, some y => pairOk x y | _, _ => false
      if !ok then (b.1, fcNotLocal) else
      let rd : State × Bool × List Byte := match from_ with
        | .mem _ ps => let x := loadPieces 4 ps b.1; (x.1, x.2.1.isNone, x.2.2)
        | .spm c off => let x := spmScan c 4 [(off, n)] (countAct dc akSpm (ceilDiv n 64) (countAct dc akVertical (ceilDiv n 64) b.1)); (x.1, x.2.isNone, spmBytes x.1 c off n)
        | .bad _ => (b.1, false, [])
      if !rd.2.1 then (rd.1, fcBusError) else
      let data := (zeroPadding d.fmt o rd.2.2).map some
      let wr : State × Bool := match to_ with
        | .mem _ ps => let x := storePieces true ps data rd.1; (x.1, x.2.isNone)
        | .spm c off =>
          let x := outerPut c off data rd.1
          (x.1, x.2.isNone)
        | .bad _ => (rd.1, false)
      if !wr.2 then (wr.1, fcBusError)
      else (updDma wr.1 dc fun m => { m with bytes := inc64 m.bytes n }, 0)

/-- The pieces of a row: (source, destination, bytes, offset in the row). A plain row is cut at the destination's 4 KiB; a skewed one moves its element
units by R129, headers and padding staying in place (R130). -/
def rowPieces (d : DmaDesc) (src : Nat) (base : Int) (r : Nat) : List (Nat × Nat × Nat × Nat) :=
  let dst := (base + r * d.dstride).toNat
  if d.skew && d.fmt != fmT2 then
    let gb := groupBytes d.fmt / 16
    let e := if isMx8 d.fmt then 16 else 8
    (List.range (d.rowBytes / 16)).map fun u =>
      let g := u / gb
      let j := u % gb
      let to_ := if j < e then (base + 16 * elemUnit d.fmt (d.dstride / 16) r g j).toNat else dst + 16 * u
      (src + 16 * u, to_, 16, 16 * u)
  else
    (span (dst / 4096) ((dst + d.rowBytes - 1) / 4096 + 1)).map fun g =>
      let a := max dst (g * 4096)
      (src + (a - dst), a, min (dst + d.rowBytes) (g * 4096 + 4096) - a, a - dst)

/-- Pieces moved in order, stopping at the first that fails. -/
def dmaPieces (dc : Nat) (d : DmaDesc) : List (Nat × Nat × Nat × Nat) → State → State × Nat
  | [], s => (s, 0)
  | (a, b, n, o) :: ps, s =>
    let r := dmaPiece dc d a b n o s
    if r.2 = 0 then dmaPieces dc d ps r.1 else r

/-- Rows of an iteration moved in order. -/
def dmaRows (dc : Nat) (d : DmaDesc) (i : Nat) : List Nat → State → State × Nat
  | [], s => (s, 0)
  | r :: rs, s =>
    let src := (d.src : Int) + i * d.sadv + r * d.sstride
    let x := dmaPieces dc d (rowPieces d src.toNat ((d.dst : Int) + i * d.dadv) r) s
    if x.2 = 0 then dmaRows dc d i rs x.1 else x

/-- The first `n` rows of iteration `i` (R199, R200): every row's address is checked before any byte moves. -/
def dmaCopy (dc : Nat) (d : DmaDesc) (i n : Nat) (s : State) : State × Nat :=
  if rowsInRange d.src d.sadv d.sstride i d.rows d.rowBytes && rowsInRange d.dst d.dadv d.dstride i d.rows d.rowBytes then
    dmaRows dc d i (List.range n) s
  else (s, fcAddress)

/-! ### Chains -/

/-- An iteration begins: it waits for its flag, or copies (R199). -/
def dmaBegin (dc : Nat) (d : DmaDesc) (i : Nat) (s : State) : State :=
  updDma s dc fun m => { m with
    cur := some d, iter := i, waits := none, taken := d.wcount == 0, st := if d.wcount = 0 then .running else .waiting }

/-- A descriptor read and begun (R199, R200, R269). -/
def dmaLoad (dc addr : Nat) (s : State) : State :=
  let s0 := updDma s dc fun m => { m with descAddr := addr, st := .running, cur := none, waits := none }
  let x := xlRange (.cluster dc) (dcPart s dc) false false (cutPages addr 64) s0
  match x.2 with
  | .bad code _ => dmaError dc code x.1
  | .ok ps =>
    if ownSide x.1 dc ps != some .tarn then dmaError dc fcNotLocal x.1
    else
      let r := loadPieces 4 ps x.1
      match r.2.1 with
      | some _ => dmaError dc fcBusError r.1
      | none =>
        let d := dmaParse r.2.2
        match dmaCheck d with
        | some c => dmaError dc c r.1
        | none => dmaBegin dc d 0 r.1

/-- Whether the partition of a cluster is RUNNING: only then may streams, chains and sequences start (R311). -/
def partRunning (s : State) (dc : Nat) : Bool :=
  match dcPart s dc with
  | some q => (getPart s q).st == .running && (getPart s q).resetting.isNone
  | none => false

/-- A chain starts (R199, R311), unless the engine is RUNNING or WAITING. -/
def dmaStart (dc : Nat) (s : State) : State :=
  let m := getDma s dc
  if m.st == .running || m.st == .waiting || !partRunning s dc then s else dmaLoad dc m.head s

/-- CLU_DMA_START (R199). -/
def execCluDmaStart (dc : Nat) (s : State) : Host.Outcome State Fault Refusal :=
  live s (if cluWritable s dc then dmaStart dc s else s)

/-- The signal of an iteration (R199): a core in reset takes none. -/
def dmaSignal (dc : Nat) (d : DmaDesc) (s : State) : State :=
  let c := dc * 1024 + d.score
  if d.sen && coreLive s c then incFlag c d.sflag 0 s else s

/-- The chain ends where it stands (R199). -/
def dmaEnded (dc : Nat) (s : State) : State := updDma s dc fun m => { m with st := .ended, cur := none, waits := none }

/-- STOP (R199): a running chain ends after the row in progress, the `rows`-th of its iteration; a wait ends at once. -/
def dmaStop (dc rows : Nat) (s : State) : State :=
  let m := getDma s dc
  match m.st, m.cur with
  | .waiting, _ => dmaEnded dc s
  | .running, some d =>
    let n := min d.rows (max 1 rows)
    let x := dmaCopy dc d m.iter n s
    if x.2 ≠ 0 then dmaError dc x.2 x.1
    else dmaEnded dc (if n = d.rows then dmaSignal dc d x.1 else x.1)
  | _, _ => s

/-- What the engine has done by `t`: where it has met a bank that a spring step holds, nothing but that it waits for it (R225). -/
def dmaWaits (dc : Nat) (s t : State) : State :=
  match t.blocked with
  | some (.bank l _) => if s.blocked.isNone then updDma s dc fun m => { m with waits := some l } else t
  | _ => t

/-- CLU_DMA_STOP (R199). -/
def execCluDmaStop (dc rows : Nat) (s : State) : Host.Outcome State Fault Refusal :=
  live s (if cluWritable s dc then dmaWaits dc s (dmaStop dc rows s) else s)

/-- The engine stopped as by STOP from within the device (R199): which row is in progress is free. A row that must wait for a spring step or a QNT is
none that is in progress (DESIGN CHOICE). -/
def dmaHalt (dc : Nat) (s : State) : State :=
  let m := getDma s dc
  match m.st, m.cur with
  | .running, some d =>
    let x := drawFree s
    unlessBlocked (dmaStop dc (1 + Config.fresh x.1 % d.rows) x.2) (dmaEnded dc x.2)
  | .waiting, _ => dmaStop dc 0 s
  | _, _ => s

/-- The flag an iteration waits on has reached its count, which is taken in one step (R199). -/
def dmaTake (dc : Nat) (s : State) : State :=
  let m := getDma s dc
  match m.st, m.cur with
  | .waiting, some d =>
    let c := dc * 1024 + d.wcore
    let v := smapGet 0 (getCore s c).flags d.wflag
    if d.wcount ≤ v.toNat then
      updDma (updCore s c fun k => { k with flags := smapSet 0 k.flags d.wflag (v - BitVec.ofNat 16 d.wcount) }) dc
        fun m => { m with taken := true, st := .running }
    else s
  | _, _ => s

/-- DMA_FLAG_WAIT_SATISFIED (R199). -/
def execDmaFlagWaitSatisfied (dc : Nat) (s : State) : Host.Outcome State Fault Refusal := live s (dmaTake dc s)

/-- An iteration copied and signalled; then the next iteration, the next descriptor, or the end (R199). -/
def dmaIterate (dc : Nat) (s : State) : State :=
  let m := getDma s dc
  match m.st, m.cur with
  | .running, some d =>
    let x := dmaCopy dc d m.iter d.rows s
    if x.1.blocked.isSome then x.1
    else if x.2 ≠ 0 then dmaError dc x.2 x.1
    else
      let s1 := dmaSignal dc d x.1
      if m.iter + 1 < d.rep then dmaBegin dc d (m.iter + 1) s1
      else if d.last then dmaEnded dc s1
      else dmaLoad dc d.next s1
  | _, _ => s

/-- DMA_ITERATION_COMPLETE (R199). -/
def execDmaIterationComplete (dc : Nat) (s : State) : Host.Outcome State Fault Refusal := live s (dmaWaits dc s (dmaIterate dc s))

/-! ### The vertical channel (R153, R154) -/

/-- Whether a macro-op moves over its core's vertical channel. -/
def isVertical (p : MOp) : Bool := (mwOp p.word == ocVld || mwOp p.word == ocVst) && !isBcast p.word

/-- One packet of a VLD or VST moved between the slice and the scratchpad (R114, R268, R269). -/
def verticalMove (c : Nat) (p : MOp) (x : Piece) (s : State) : State :=
  match paLoc s x.far with
  | none => opFault c p fcNotLocal x.far s
  | some l =>
    let done := updOp c p.id fun q => { q with todo := q.todo.drop 1 }
    if mwOp p.word = ocVld then
      let r := memLoad l x.n 0 s
      match r.2.1 with
      | some e => opFault c p fcBusError (locPa r.1 e) r.1
      | none =>
        let w := spmPut c x.loc r.2.2 r.1
        match w.2 with
        | some e => opFault c p fcSpmUnc e w.1
        | none => done w.1
    else
      let sc := spmScan c 0 [(x.loc, x.n)] s
      match sc.2 with
      | some e => opFault c p fcSpmUnc e sc.1
      | none =>
        let r := memStore l ((spmBytes sc.1 c x.loc x.n).map some) false sc.1
        match r.2 with
        | some e => opFault c p fcBusError (locPa r.1 e) r.1
        | none => done r.1

/-- Whether a side of the iteration in progress of a descriptor has a row in the scratchpads of a core. -/
def sideUses (c i rows : Nat) (space base : Nat) (adv stride : Int) : Bool :=
  space == 3 && (List.range rows).any fun r => ((base : Int) + i * adv + r * stride).toNat / 32768 == c

/-- Whether the running descriptor of a core's cluster moves bytes of that core's scratchpads. -/
def dmaUses (s : State) (c : Nat) : Bool :=
  let m := getDma s (lciDc c)
  m.st == .running && match m.cur with
    | some d => sideUses c m.iter d.rows d.sspace d.src d.sadv d.sstride || sideUses c m.iter d.rows d.dspace d.dst d.dadv d.dstride
    | none => false

/-- The oldest VLD or VST of a core with packets left to move over its vertical channel. -/
def vOldest (s : State) (c : Nat) : Option MOp := (getCore s c).ops.find? fun p => p.started && isVertical p && !p.todo.isEmpty

/-- The sequence of a core that its column's queue may write a partial or a record for (R155). -/
def vSeq (s : State) (c : Nat) : Option SprSeq := (getSpr s (lciDc c)).seqs.find? fun q => q.core == some c

/-- The packets of each user of a vertical channel count their own retries. -/
def userNo : VUser → Nat
  | .transfer => 0 | .dma => 1 | .spring => 2

/-- Whether a user of a core's vertical channel has a packet on it (R155). -/
def vBusy (s : State) (c : Nat) : VUser → Bool
  | .transfer => (vOldest s c).isSome
  | .dma => dmaUses s c
  | .spring => (vSeq s c).isSome

/-- What owns a packet that has failed four times ends with BUS_ERROR (R154); DEDUCED: of a spring sequence's packet, the sequence, which reaches its
core no more, and the core, as for its other errors of memory (R269). -/
def vFail (c : Nat) (u : VUser) (s : State) : State :=
  match u with
  | .transfer =>
    match vOldest s c with
    | some p => opFault c p fcBusError ((p.todo.head?.map (·.far)).getD 0) s
    | none => s
  | .dma => dmaError (lciDc c) fcBusError s
  | .spring =>
    match vSeq s c with
    | some q =>
      let dc := lciDc c
      let s1 := updSpr (sprDrop dc q.id s) dc fun r => { r with done := r.done + 1 }
      stopFault c fcBusError ocSpq q.maddr (spmPa c (sdStat q.desc)) (sprStart dc (sprEvent dc q (sprRecord q ssBusError) s1))
    | none => s

/-- A packet on a core's vertical channel is received (R153, R154): a CRC error is retried and counted (R178), and the fourth in a row is
uncorrectable and asks for a repair (R276). -/
def verticalReceive (c : Nat) (u : VUser) (ok : Bool) (s : State) : State :=
  let tries := fun (n : Nat) (s : State) => updCore s c fun k => { k with vRetries := smapSet 0 k.vRetries (userNo u) n }
  let n := smapGet 0 (getCore s c).vRetries (userNo u)
  if !coreLive s c || !vBusy s c u then s
  else if ok then
    match u, vOldest s c with
    | .transfer, some p =>
      (match p.todo with
        | x :: _ => verticalMove c p x (countAct (lciDc c) akVertical 1 (tries 0 s))
        | [] => s)
    | _, _ => tries 0 s
  else if n < 3 then updClu (tries (n + 1) s) (lciDc c) fun q => { q with fabRetry := q.fabRetry + 1 }
  else vFail c u (repairCoreCol c (tries 0 s))

/-- VERTICAL_PACKET_RECEIVE (R154). -/
def execVerticalPacketReceive (lci : Nat) (rx : VertRx) (s : State) : Host.Outcome State Fault Refusal :=
  live s (verticalReceive lci rx.user rx.crcOk s)

end Sys2Proof.Machine
end

