-- ==== Sys2Proof/Machine/Registers.lean ====
section
/-! DEFINITION. The cluster control blocks and the die control blocks by access units (R96, R136, R178, R189 to R191, R195, R197, R202, R237,
R252, R271, R382, R401, R475), and what a write of each unit does. -/

namespace Sys2Proof.Machine

/-! ### Clocks (R364, R382) -/

/-- A thermal factor level in units of 1/16: none, 1.25, 1.5, 2.0, 4.0. -/
def levelFactor : Nat → Nat
  | 0 => 16 | 1 => 20 | 2 => 24 | 3 => 32 | _ => 64

/-- The thermal site of a cluster (R385). -/
def dcSite (s : State) (dc : Nat) : Nat := Config.siteOf (dcDie dc * 256 + dcPhys s dc) % 48

/-- The stretch factor in force on a cluster, in units of 1/16: the largest of those that act on it (R364, R369, R371, R373, R381, R389,
R390). -/
def cluFactor (s : State) (dc : Nat) : Nat :=
  let p := (getClu s dc).pwr
  let r := getRgn s (dcDie dc) (dcRgn s dc)
  let t := getSite s (dcDie dc) (dcSite s dc)
  let fs := [levelFactor p.droop, if r.ocs = 1 then 32 else 16, if p.st = .on then levelFactor r.turnOnStretch else 16,
    if r.slack then 20 else 16, levelFactor t.level, if t.distrust then 24 else 16]
  fs.foldl max 16

/-! ### Reads of a cluster control block -/

/-- `CLU_PWR.STATE`'s encoding (R382). -/
def PwrSt.code : PwrSt → Nat
  | .off => 0 | .turningOn => 1 | .on => 2 | .stopped => 3

/-- The KV walker's registers as read (R252): zero on M4. -/
def kvwRead (s : State) (k : Kvw) (u : Nat) : Nat :=
  if !kvFitted s then 0
  else if u = 0x280 then bit k.en + 2 ^ 40 * k.wbase
  else if u = 0x288 then k.loff + 2 ^ 16 * k.poff + 2 ^ 32 * k.psize
  else if u = 0x290 then 1 + 2 * k.tlb.length + 128 * bit k.ign
  else if u = 0x298 then k.hits.toNat
  else if u = 0x2A0 then k.walks.toNat
  else 0

/-- The spring queue's registers as read (R237). -/
def sprRegRead (r : SprQ) (u : Nat) : Nat :=
  if u = 0x340 then
    r.seqs.length + 2 ^ 8 * (r.seqs.filter (·.started)).length + 2 ^ 16 * bit (r.seqs.any (·.ending == some 0x16))
  else if u = 0x348 then bit r.en
  else if u = 0x358 then r.done.toNat
  else if u = 0x360 then r.refused.toNat
  else if u = 0x368 then r.steps.toNat
  else 0

/-- The 8 bytes at an 8-byte offset of a cluster control block (R189). -/
def cluRead (s : State) (dc u : Nat) : Nat :=
  let k := getClu s dc
  if u < 0x100 then
    let n := u / 0x40
    let q := getSeq s dc n
    match u % 0x40 with
    | 0x00 => q.start | 0x08 => q.limit | 0x10 => seqStateWord s dc n | 0x18 => q.pc | 0x20 => q.issued.toNat | _ => 0
  else if u = 0x100 then k.spmPwr + 2 ^ 8 * bit k.spmIgn + 2 ^ 9 * bit k.spmBusy
  else if u = 0x180 then k.fabTx.toNat
  else if u = 0x188 then k.fabRx.toNat
  else if u = 0x190 then k.fabComb.toNat
  else if u = 0x198 then k.fabNocomb.toNat
  else if u = 0x1A0 then k.fabRetry.toNat
  else if u = 0x200 then bit k.xlatEn + k.xlatBase
  else if u = 0x210 then bit (!k.xlat.inv.isEmpty) + 2 * k.xlat.tlb.length
  else if u = 0x218 then k.xlatWalks.toNat
  else if u = 0x240 then k.dma.head
  else if u = 0x250 then k.dma.st.code + 2 ^ 8 * k.dma.code + 2 ^ 16 * k.dma.descAddr
  else if u = 0x258 then k.dma.bytes.toNat
  else if 0x280 ≤ u ∧ u < 0x2C0 then kvwRead s k.kvw u
  else if u = 0x300 then k.tarnWait.toNat
  else if u = 0x308 then k.fillWait.toNat
  else if 0x340 ≤ u ∧ u < 0x370 then sprRegRead k.spr u
  else if u = 0x380 then
    k.pwr.st.code + 2 ^ 2 * (k.pwr.stages - 1) + 2 ^ 4 * bit k.pwr.waitLoad + 2 ^ 5 * k.pwr.droop + 2 ^ 8 * cluFactor s dc
  else if u = 0x388 then k.pwr.droopCount.toNat
  else 0

/-! ### Writes of a cluster control block -/

/-- Whether a window, open or held, overlaps a half. -/
def winInHalf (w : Win) (h : Nat) : Bool :=
  (w.isOpen || w.held) && decide (w.base < (halfRange h).2) && decide ((halfRange h).1 ≤ w.last)

/-- The halves that a write of `CLU_SPM_PWR` would power down. -/
def newlyDown (old v : Nat) : List Nat := (List.range 6).filter fun h => natBit v h && !natBit old h

/-- A write of `CLU_SPM_PWR` (R137, R139). -/
def spmPwrWrite (dc v : Nat) (s : State) : State :=
  let k := getClu s dc
  let down := newlyDown k.spmPwr v
  let cores := cluCores s dc
  let ok := cores.all fun c =>
    (getCore s c).st == .idle && !((List.range 4).any fun w => down.any fun h => winInHalf (getWin (getCore s c) w) h)
  if ok then
    let s1 := updClu s dc fun k => { k with
      spmPwr := v % 64
      spmIgn := k.spmIgn && !natBit v 8
      spmBusy := k.spmBusy || v % 64 != k.spmPwr }
    forEach cores (fun s c => updCore s c fun k => down.foldl (fun k h => halfClear h k) k) s1
  else updClu s dc fun k => { k with spmIgn := true }

/-- Whether a write of `KVW_CFG` or `KVW_TABLES` takes effect now (R252). -/
def kvwOpen (s : State) (dc : Nat) : Bool :=
  let m := getDma s dc
  (cluCores s dc).all (fun c => (getCore s c).st != .running) && m.st != .running && m.st != .waiting

/-- A write of the KV walker's registers (R252): ignored on M4. -/
def kvwWrite (dc u v : Nat) (s : State) : State :=
  if !kvFitted s then s else
  let upd := fun (f : Kvw → Kvw) => updClu s dc fun k => { k with kvw := f k.kvw }
  if u = 0x280 ∨ u = 0x288 then
    if !kvwOpen s dc then upd fun k => { k with ign := true }
    else if u = 0x280 then upd fun k => { k with en := natBit v 0, wbase := natBits v 47 40, tlb := [] }
    else upd fun k => { k with loff := natBits v 13 0, poff := natBits v 29 16, psize := min 9216 (natBits v 45 32), tlb := [] }
  else if u = 0x290 then upd fun k => { k with ign := k.ign && !natBit v 7 }
  else if u = 0x298 then upd fun k => { k with hits := w64 v }
  else if u = 0x2A0 then upd fun k => { k with walks := w64 v }
  else s

/-- A write of `CLU_XLAT_ROOT` (R195): every translation the unit holds goes. -/
def xlatRootWrite (dc v : Nat) (s : State) : State :=
  updClu s dc fun k => { k with
    xlatEn := natBit v 0, xlatBase := natBits v 47 12 * 4096, xlat := { k.xlat with tlb := [] } }

/-- A write of `CLU_XLAT_INV` (R197). -/
def xlatInvWrite (dc : Nat) (what : Option Nat) (s : State) : State :=
  queueInv (.cluster dc) what none none s

/-- What `CLU_XLAT_INV` names: none for ALL. -/
def invWhat (v : Nat) : Option Nat := if natBit v 0 then none else some (natBits v 47 16 * 65536)

/-- A write of `CLU_DMA_CTRL` (R199): START acts where the engine is at rest, STOP where it is not; which row is in progress is free. -/
def dmaCtrl (dc v : Nat) (s : State) : State :=
  let m := getDma s dc
  if m.st = .running ∨ m.st = .waiting then (if natBit v 1 then dmaHalt dc s else s)
  else if natBit v 0 then dmaStart dc s else s

/-- A write of `SPR_CTRL` (R237, R238). -/
def sprCtrlWrite (dc v : Nat) (s : State) : State :=
  let s1 := updSpr s dc fun r => { r with en := natBit v 0 }
  if natBit v 1 then sprAbort dc (fun _ => true) s1 else s1

/-- A write of one access unit of a cluster control block (R189, R475): read-only and reserved units ignore it. -/
def cluWriteUnit (dc u v : Nat) (s : State) : State :=
  if u < 0x100 then
    let n := u / 0x40
    match u % 0x40 with
    | 0x00 => updSeq s dc n fun q => { q with start := natBits v 47 0 }
    | 0x08 => updSeq s dc n fun q => { q with limit := natBits v 47 0 }
    | 0x20 => updSeq s dc n fun q => { q with issued := w64 v }
    | _ => s
  else if u = 0x100 then spmPwrWrite dc v s
  else if u = 0x180 then updClu s dc fun k => { k with fabTx := w64 v }
  else if u = 0x188 then updClu s dc fun k => { k with fabRx := w64 v }
  else if u = 0x190 then updClu s dc fun k => { k with fabComb := w64 v }
  else if u = 0x198 then updClu s dc fun k => { k with fabNocomb := w64 v }
  else if u = 0x1A0 then updClu s dc fun k => { k with fabRetry := w64 v }
  else if u = 0x200 then xlatRootWrite dc v s
  else if u = 0x208 then xlatInvWrite dc (invWhat v) s
  else if u = 0x218 then updClu s dc fun k => { k with xlatWalks := w64 v }
  else if u = 0x240 then updDma s dc fun m => { m with head := natBits v 47 0 }
  else if u = 0x248 then dmaCtrl dc v s
  else if u = 0x258 then updDma s dc fun m => { m with bytes := w64 v }
  else if 0x280 ≤ u ∧ u < 0x2C0 then kvwWrite dc u v s
  else if u = 0x300 then updClu s dc fun k => { k with tarnWait := w64 v }
  else if u = 0x308 then updClu s dc fun k => { k with fillWait := w64 v }
  else if u = 0x348 then sprCtrlWrite dc v s
  else if u = 0x350 then sprSubmit dc (natBits v 47 0) s
  else if u = 0x358 then updSpr s dc fun r => { r with done := w64 v }
  else if u = 0x360 then updSpr s dc fun r => { r with refused := w64 v }
  else if u = 0x368 then updSpr s dc fun r => { r with steps := w64 v }
  else if u = 0x388 then updClu s dc fun k => { k with pwr := { k.pwr with droopCount := w64 v } }
  else s

/-! ### Reads of a die control block -/

/-- The hottest accepted value of some layers of a stack, in whole degrees; 0 below 0 °C (R401). The field's 8 bits saturate at 255: DESIGN CHOICE. -/
def hottest (s : State) (k : Nat) (layers : List Nat) : Nat :=
  let vs := (List.range 48).flatMap fun i => layers.map fun j => (smapGet {} (getSite s k i).layers j).accepted
  min 255 ((vs.foldl max 0) / 8).toNat

/-- The highest thermal factor level in force in a stack (R389, R390, R401). -/
def stackLevel (s : State) (k : Nat) : Nat :=
  (List.range 48).foldl (fun m i => max m (max (getSite s k i).level (if (getSite s k i).distrust then 2 else 0))) 0

/-- `MEM_LOG` entries (R272): the quarter of an entry at an offset. -/
def memLogRead (e : MemLog) (q : Nat) : Nat :=
  match q with
  | 0 => e.addr + 2 ^ 48 * e.unit + 2 ^ 50 * e.mdie + 2 ^ 53 * e.nsym
  | 1 => e.first
  | 2 => e.last
  | _ => e.rep + 2 ^ 16 * e.pos0 + 2 ^ 24 * e.pos1

/-- The 8 bytes at an 8-byte offset of a die control block (R190, R271, R382, R401). -/
def dieRead (s : State) (k u : Nat) : Nat :=
  let x := getStk s k
  let m := s.mdies
  if u = 0x000 then x.clsize + 16 * m + 128 * bit (kvFitted s)
  else if 0x040 ≤ u ∧ u < 0x040 + 8 * m then
    let d := getMDie s k ((u - 0x040) / 8)
    bit d.hot + 2 * bit d.src
  else if 0x060 ≤ u ∧ u < 0x060 + 8 * m then (getMDie s k ((u - 0x060) / 8)).preempt.toNat
  else if 0x100 ≤ u ∧ u < 0x140 then
    let r := getRgn s k ((u - 0x100) / 16)
    if u % 16 = 0 then
      r.op + 2 ^ 4 * (r.trim % 256).toNat + 2 ^ 12 * r.vset + 2 ^ 22 * r.ocs + 2 ^ 24 * bit r.topLost + 2 ^ 32 * r.amps
    else r.ocEvt.toNat
  else if u = 0x200 then
    hottest s k [0] + 2 ^ 8 * hottest s k [1] + 2 ^ 16 * hottest s k ((List.range m).map (· + 2)) + 2 ^ 24 * stackLevel s k
      + 2 ^ 27 * bit s.side.coolBad + 2 ^ 28 * bit x.degraded + 2 ^ 29 * bit x.warm
  else if u = 0x208 then
    ((List.range 48).map fun i => if (getSite s k i).distrust then 2 ^ i else 0).foldl (· + ·) 0
  else if u = 0x210 then x.thetaBoot + 2 ^ 16 * x.thetaRun + 2 ^ 32 * x.thetaInst
  else if u = 0x218 then x.dcount.toNat
  else if u = 0x400 then x.ceTarn.toNat
  else if 0x408 ≤ u ∧ u < 0x408 + 8 * m then (getMDie s k ((u - 0x408) / 8)).ce.toNat
  else if u = 0x428 then x.ceSpm.toNat
  else if u = 0x430 then x.ueTarn.toNat
  else if 0x438 ≤ u ∧ u < 0x438 + 8 * m then (getMDie s k ((u - 0x438) / 8)).ue.toNat
  else if u = 0x458 then x.ueSpm.toNat
  else if u = 0x460 then x.poisonReads.toNat
  else if u = 0x468 then x.log.length + 2 ^ 8 * bit x.logOvf + 2 ^ 16 * x.unlogged
  else if u = 0x478 then x.dhours + 2 ^ 8 * x.thours + 2 ^ 16 * bit x.scrubEn
  else if u = 0x480 then x.dpass + 2 ^ 32 * x.tpass
  else if 0x800 ≤ u ∧ u < 0x1000 then
    match x.log[(u - 0x800) / 32]? with
    | some e => memLogRead e (u % 32 / 8)
    | none => 0
  else 0

/-! ### Writes of a die control block -/

/-- A write of `STK_MEM_CFG` (R190, R191). -/
def stkCfgWrite (k v : Nat) (s : State) : State :=
  match (getStk s k).part with
  | some _ => s
  | none => updStk s k fun x => { x with clsize := min 12 (v % 16) }

/-- `MEM_LOG_CTRL.CLR` (R271, R272). -/
def memLogClear (k : Nat) (s : State) : State := updStk s k fun x => { x with log := [], logOvf := false, unlogged := 0 }

/-- A pass time as stored: from 1 to 24 hours (R271). -/
def clampHours (v : Nat) : Nat := if v = 0 then 1 else min 24 v

/-- A write of one access unit of a die control block. -/
def dieWriteUnit (k u v : Nat) (s : State) : State :=
  let m := s.mdies
  if u = 0x000 then stkCfgWrite k v s
  else if 0x060 ≤ u ∧ u < 0x060 + 8 * m then updMDie s k ((u - 0x060) / 8) fun d => { d with preempt := w64 v }
  else if 0x100 ≤ u ∧ u < 0x140 ∧ u % 16 = 8 then updRgn s k ((u - 0x100) / 16) fun r => { r with ocEvt := w64 v }
  else if u = 0x218 then updStk s k fun x => { x with dcount := w64 v }
  else if u = 0x400 then updStk s k fun x => { x with ceTarn := w64 v }
  else if 0x408 ≤ u ∧ u < 0x408 + 8 * m then updMDie s k ((u - 0x408) / 8) fun d => { d with ce := w64 v }
  else if u = 0x428 then updStk s k fun x => { x with ceSpm := w64 v }
  else if u = 0x430 then updStk s k fun x => { x with ueTarn := w64 v }
  else if 0x438 ≤ u ∧ u < 0x438 + 8 * m then updMDie s k ((u - 0x438) / 8) fun d => { d with ue := w64 v }
  else if u = 0x458 then updStk s k fun x => { x with ueSpm := w64 v }
  else if u = 0x460 then updStk s k fun x => { x with poisonReads := w64 v }
  else if u = 0x470 then (if natBit v 0 then memLogClear k s else s)
  else if u = 0x478 then
    updStk s k fun x => { x with
      dhours := clampHours (natBits v 4 0), thours := clampHours (natBits v 12 8), scrubEn := natBit v 16 }
  else s

/-! ### The commands on single registers -/

/-- CLU_XLAT_ROOT_WRITE (R195): Meridian writes it. -/
def execCluXlatRootWrite (dc : Nat) (v : W64) (s : State) : Host.Outcome State Fault Refusal :=
  live s (if cluWritable s dc then xlatRootWrite dc v.toNat s else s)

/-- CLU_XLAT_INV_ALL (R197). -/
def execCluXlatInvAll (dc : Nat) (s : State) : Host.Outcome State Fault Refusal :=
  live s (if cluWritable s dc then xlatInvWrite dc none s else s)

/-- CLU_XLAT_INV_PAGE (R197): `v` gives bits [47:16] of the address. -/
def execCluXlatInvPage (dc : Nat) (v : W64) (s : State) : Host.Outcome State Fault Refusal :=
  live s (if cluWritable s dc then xlatInvWrite dc (some (natBits v.toNat 47 16 * 65536)) s else s)

/-- KVW_CONFIG_WRITE (R252). -/
def execKvwConfigWrite (dc : Nat) (tables : Bool) (v : W64) (s : State) : Host.Outcome State Fault Refusal :=
  live s (if cluWritable s dc then kvwWrite dc (if tables then 0x288 else 0x280) v.toNat s else s)

/-- CLU_SPM_PWR_WRITE (R137). -/
def execCluSpmPwrWrite (dc : Nat) (v : W64) (s : State) : Host.Outcome State Fault Refusal :=
  live s (if cluWritable s dc then spmPwrWrite dc v.toNat s else s)

/-- SPM_POWER_CHANGE_COMPLETE (R137): BUSY clears, and the stream starts that waited for it go on. -/
def spmPowerDone (dc : Nat) (s : State) : State :=
  if (getClu s dc).spmBusy then
    forEach (List.range 4) (fun s n => updSeq s dc n fun q => { q with waitPwr := false })
      (updClu s dc fun k => { k with spmBusy := false })
  else s

/-- SPM_POWER_CHANGE_COMPLETE (R137). -/
def execSpmPowerChangeComplete (dc : Nat) (s : State) : Host.Outcome State Fault Refusal := live s (spmPowerDone dc s)

/-- CORE_BIND_WRITE (R96). -/
def execCoreBindWrite (lci : Nat) (v : W64) (s : State) : Host.Outcome State Fault Refusal :=
  live s (if lciOk lci && coreLive s lci then updCore s lci (bindWrite v.toNat) else s)

/-- STK_MEM_CFG_WRITE (R191). -/
def execStkMemCfgWrite (stack : Nat) (v : W64) (s : State) : Host.Outcome State Fault Refusal :=
  live s (if stack < 6 then stkCfgWrite stack v.toNat s else s)

/-- MEM_LOG_CTRL_CLR (R272). -/
def execMemLogCtrlClr (stack : Nat) (s : State) : Host.Outcome State Fault Refusal :=
  live s (if stack < 6 then memLogClear stack s else s)

end Sys2Proof.Machine
end

