-- ==== Sys2Proof/Machine/Resets.lean ====
section
/-! DEFINITION. Core, cluster and partition resets (R413 to R417), the switching-off of clusters (R365, R366), partition and device states (R310,
R311, R418), and the ends of sessions (R304, R305). -/

namespace Sys2Proof.Machine

/-! ### Cores (R414) -/

/-- The packets that a core had admitted before its reset point commit and are answered (R414). -/
def flushHeld (c : Nat) (s : State) : State :=
  forEach (getCore s c).held (fun s h =>
    match findPkt s h.pid with
    | none => s
    | some p =>
      let r := commitHeld c h s
      dropPkt h.pid (match r.2 with
        | none => answerPkt p .commit 0 r.1
        | some e => answerPkt p .busError e r.1)) s

/-- A core counts as arrived at every barrier whose participation is fixed (R414). -/
def leaveBars (c : Nat) (s : State) : State :=
  { s with bars := s.bars.map fun b => { b with parts := b.parts.filter (· != c), arrived := b.arrived.filter (· != c) } }

/-- The packets in flight to a core that resets, which will be answered RESET_ABORT (R149, R353). -/
def stalePkts (c : Nat) (s : State) : State :=
  updNet s fun t => { t with pkts := mapIf (fun p => p.dst == .core c && !p.taken) (fun p => { p with stale := true }) t.pkts }

/-- A core takes its state after a core reset (R413): what it had not sent is never sent (R414). -/
def clearCore (c : Nat) (s : State) : State :=
  let s1 := updCore (stalePkts c (leaveBars c s)) c fun k => { cycleBase := s.dev.time, spmCorr := k.spmCorr }
  { s1 with walks := s1.walks.filter fun w => match w.req with | .op l _ => l != c | .seq _ => true }

/-- A sequencer that a core has left: with no bound core it enters ENDED, whatever state but ENDED it was in, and reports the abort; else it may have
ended (R120, R414). -/
def seqOrphan (dc n : Nat) (s : State) : State :=
  let q := getSeq s dc n
  if (boundCores s dc n).isEmpty && q.st != .ended then
    streamEnd dc n true (updSeq s dc n fun q => { q with st := .ended, draining := true, buf := none, aborted := true, waitPwr := false })
  else checkSeqEnd dc n s

/-- A core reset (R413, R414), with the spring sequences that the core submitted (R238). -/
def coreReset (c : Nat) (s : State) : State :=
  let k := getCore s c
  let s1 := clearCore c (sprStop (lciDc c) (· == some c) (flushHeld c s))
  if k.bindEn then seqOrphan (lciDc c) k.bindSeq s1 else s1

/-! ### Clusters (R365, R366, R413 to R415) -/

/-- The cores of a cluster lose their state as it is switched off (R366). -/
def dropCores (dc : Nat) (s : State) : State := forEach (cluCores s dc) (fun s c => clearCore c (flushHeld c s)) s

/-- A cluster's clock stops and its header switch opens stage by stage (R365); `st` is what `CLU_PWR.STATE` then shows. -/
def cluOff (dc : Nat) (st : PwrSt) (s : State) : State :=
  updClu (dropCores dc s) dc fun k => { k with
    pwr := { k.pwr with st := st, turningOff := decide (0 < k.pwr.stages), due := false, waitLoad := false, stageHeld := false, doubled := false, droop := 0, resetOff := false } }

/-- The sequencers of a cluster after a cluster reset (R415): IDLE, with `SEQ_START`, `SEQ_LIMIT`, the count of issues and the
rotation points reached (R398) kept. -/
def seqsReset (qs : SMap Seqr) : SMap Seqr :=
  (List.range 4).foldl (fun m n =>
    let q := smapGet {} qs n
    smapSet {} m n { start := q.start, limit := q.limit, issued := q.issued, rotIdx := q.rotIdx }) []

/-- A cluster's registers after a cluster reset (R415). -/
def cluRegs (k : Cluster) : Cluster :=
  { k with
    seqs := seqsReset k.seqs
    spmIgn := false
    spmBusy := false
    xlat := {}
    dma := { bytes := k.dma.bytes }
    kvw := { k.kvw with ign := false, tlb := [] }
    spr := { k.spr with seqs := [], waiting := [], running := [], lastUnit := [] }
    busLast := 3 }

/-- The walks of a cluster are dropped. -/
def dropWalks (dc : Nat) (s : State) : State := { s with walks := s.walks.filter fun w => w.who != .cluster dc }

/-- XLAT_INVAL commands whose invalidations have all completed are answered (R312). -/
def settleInvals (s : State) : State :=
  let left := fun (a : Nat) (s : State) =>
    s.clusters.any (fun e => e.2.xlat.inv.any fun i => i.ap == some a) || s.xlead.inv.any (fun i => i.ap == some a) ||
      s.xport.any fun e => e.2.inv.any fun i => i.ap == some a
  forEach (apsWaiting s fun _ c => c.opcode == 0x54) (fun s a => if left a s then s else finish a stOk (mkResult []) s) s

/-- The streams that a cluster reset ends (R415): each running, trapped or with bound cores. -/
def reportStreams (dc : Nat) (s : State) : State :=
  forEach (List.range 4) (fun s n =>
    let q := getSeq s dc n
    if q.st == .running || q.st == .trapped || !(boundCores s dc n).isEmpty then streamEnd dc n true s else s) s

/-- A cluster reset from its reset point to the opening of its header switch (R414, R415). -/
def clusterReset (dc : Nat) (s : State) : State :=
  let s1 := sprStop dc (fun _ => true) (dropCores dc (reportStreams dc s))
  let s2 := cluOff dc .off (updClu (dropWalks dc s1) dc cluRegs)
  settleInvals <| updClu s2 dc fun k => { k with pwr := { k.pwr with inReset := true, resetOff := k.pwr.stages == 0 } }

/-- CLUSTER_RESET_OFF_END (R415): the off period ends and the turn-on is due. -/
def resetOffEnd (dc : Nat) (s : State) : State :=
  if (getClu s dc).pwr.resetOff then updClu s dc fun k => { k with pwr := { k.pwr with resetOff := false, due := true } } else s

/-- CLUSTER_RESET_OFF_END (R415). -/
def execClusterResetOffEnd (dc : Nat) (s : State) : Host.Outcome State Fault Refusal := live s (resetOffEnd dc s)

/-! ### States (R310, R311, R400, R418) -/

/-- The device moves among READY, RUNNING and DRAINING as its partitions do (R310). -/
def settleDev (s : State) : State :=
  if devIn [.ready, .running, .draining] s then
    let sts := s.parts.map fun e => e.2.st
    updDev s fun d => { d with st := if sts.contains .running then .running else if sts.contains .draining then .draining else .ready }
  else s

/-- The mean accepted compute value of a stack times 48, in eighths of a degree. -/
def computeSum (s : State) (k : Nat) : Int :=
  (List.range 48).foldl (fun t i => t + (smapGet {} (getSite s k i).layers 0).accepted) 0

/-- The keep-warm load of a stack runs while its mean lies below the target (R400): the floor, which falls at the cooling rate once the hold
time has expired. -/
def settleWarm (k : Nat) (s : State) : State :=
  let p := s.power
  updStk s k fun x =>
    let target : Int := (p.warmFloor * 8 * 60000 : Nat) - (if x.holdOver then (4 * p.warmRate * x.fallMs : Nat) else 0)
    { x with warm := x.keepWarm && decide (computeSum s k * 60000 < 48 * target) }

/-- A partition enters a state (R311, R326, R418): the event names the cause; READY is kept warm (R400). -/
def setPart (q : Nat) (st : PartSt) (cause : Nat) (s : State) : State :=
  let old := (getPart s q).st
  let s1 := updPart s q fun p => { p with st := st }
  let s2 := forEach (partStacks s1 q) (fun s k => settleWarm k (updStk s k fun x => { x with keepWarm := st == .ready, holdOver := false, fallMs := 0 })) s1
  settleDev <| raiseEvent 0x0108 (if st = .salvage then 2 else 0) (.both q)
    (mkResult [(0, 1, q), (1, 1, old.code), (2, 1, st.code), (3, 1, cause)]) s2

/-- Causes of R418. -/
def caCommand : Nat := 0
def caSession : Nat := 1
def caDrained : Nat := 2
def caExpired : Nat := 3
def caOvercurrent : Nat := 4
def caOvertemp : Nat := 5
def caTrip : Nat := 6
def caRegulator : Nat := 7

/-! ### Partition resets (R416) -/

/-- A link chain that stops. -/
def haltChain (c : Chain) : Chain := if c.st = .running ∨ c.st = .waiting then { c with st := .ended, cur := none } else c

/-- A chain that stops with its status record, where the link page is writable (R356). -/
def endChain (q : Nat) (s : State) (k : Nat) : State :=
  let c := getChain s k q
  let s1 := updChain s k q haltChain
  if c.st = .running ∨ c.st = .waiting then chainRecord k q s1 else s1

/-- The links stop serving a partition (R353, R356, R416): its chains end, the answers to its requests are no longer awaited, and the neighbour's
messages already taken are answered RESET_ABORT. -/
def haltLinks (q : Nat) (s : State) : State :=
  forEach (List.range 6) (fun s k =>
    let p := getPort s k
    let put := (p.job.map fun x => parseHdr x.hdr).filter fun h => h.type == mtPut && h.dpart == q
    let s0 := match put with
      | some h => sendAnswer k q h.spart h.mtag 3 (updPort s k fun p => { p with job := none })
      | none => s
    let s1 := forEach (p.rputs.filter fun r => r.dpart == q) (fun s r => sendAnswer k q r.spart r.mtag 3 s) s0
    updPort (endChain q s1 k) k fun p => { p with
      reqs := orphanReqs q p.reqs
      barriers := p.barriers.filter fun b => b.2 != q
      rputs := p.rputs.filter fun r => r.dpart != q
      notes := p.notes.filter fun n => lciPart s n.core != some q }) s

/-- The sequencers, DMA engines, spring sequences and link chains of a partition stop (R416); DEDUCED: each running stream ends with
its event, as every stream's end does (R317, R415). -/
def stopPart (q : Nat) (s : State) : State :=
  haltLinks q <| forEach (partClus s q) (fun s dc =>
    dmaHalt dc (sprStop dc (fun _ => true) (forEach (List.range 4) (fun s n => seqAbort dc n s) s))) s

/-- The commands and records of an aperture end without a record (R294, R305). -/
def dropAp (a : Nat) (s : State) : State :=
  updAp s a fun k => { k with
    taken := [], cur := none, recs := [], evq := [], evNew := 0, authRun := 0, pktCount := 0, recCount := 0, recClear := false }

/-- The aperture whose command a reset answers. -/
def ResetWhy.ap : ResetWhy → Option Nat
  | .command a => some a
  | .destroy a => some a
  | _ => none

/-- What a reset is for when another has begun: a PART_DESTROY goes on (R316). -/
def resetFor (old : Option ResetWhy) (why : ResetWhy) : ResetWhy :=
  match old with
  | some (.destroy a) => .destroy a
  | _ => why

/-- The bytes that a transfer has completed (R307, R325). -/
def Cmd.done (c : Cmd) : Nat := if c.opcode = 0x52 then (c.bcast.map (·.bytes)).getD 0 else c.moved + (c.job.map (·.done)).getD 0

/-- A partition reset begins (R416, steps 1 and 2): the partition's started commands on other apertures end ABORTED (R316). -/
def beginReset (q : Nat) (why : ResetWhy) (s : State) : State :=
  let s1 := forEach ((partAps s q).filter fun a => why.ap != some a) (fun s a =>
    match (getAp s a).cur with
    | some c => if c.started then finish a stAborted (errorResult fcResetAbort 0 c.done) s else s
    | none => s) s
  stopPart q (updPart s1 q fun p => { p with resetting := some (resetFor p.resetting why), drainAp := none })

/-- Whether a packet has an end in a partition. -/
def pktOf (s : State) (q : Nat) (p : Pkt) : Bool :=
  let inQ := fun e => match epDc e with | some dc => dcPart s dc == some q | none => false
  inQ p.src || inQ p.dst

/-- A cluster's registers after a partition reset (R416): only the counters are kept. -/
def cluPartReset (k : Cluster) : Cluster :=
  { (cluRegs k) with
    seqs := (List.range 4).foldl (fun m n => smapSet {} m n { issued := (smapGet {} k.seqs n).issued }) []
    spmPwr := 0
    xlatEn := false
    xlatBase := 0
    kvw := { hits := k.kvw.hits, walks := k.kvw.walks }
    spr := { done := k.spr.done, refused := k.spr.refused, steps := k.spr.steps } }

/-- Whether a cluster may be switched on: neither its region nor its stack's memory rails have faulted (R406). -/
def cluPowered (s : State) (dc : Nat) : Bool :=
  dcOk dc && !(getRgn s (dcDie dc) (dcRgn s dc)).failed && !(getStk s (dcDie dc)).memFailed && !(getStk s (dcDie dc)).unavailable

/-- A cluster switched off at once, its turn-on due when `on` (R366). -/
def cluCycle (on : Bool) (s : State) (dc : Nat) : State :=
  updClu s dc fun k => { k with pwr := { droopCount := k.pwr.droopCount, due := on && cluPowered s dc } }

/-- The clusters of a partition lose all but their counters, and the valid stores of its stacks are cleared (R207, R416, steps 4 to 6). -/
def resetClusters (q : Nat) (on : Bool) (s : State) : State :=
  let s1 := forEach (partClus s q) (fun s dc => dropWalks dc (updClu (dropCores dc s) dc cluPartReset)) s
  let s2 := forEach (partStacks s1 q) (fun s k =>
    forEach (List.range 4) (fun s r => updRgn s k r fun x => if x.failed then x else { x with ocs := 0, hi := 0, lo := 0, trip := 0, turnOnStretch := 0 })
      (forEach (List.range 48) (fun s i => updSite s k i fun x => { x with hot := [] }) (clearStack k s))) s1
  let s3 := { s2 with bars := s2.bars.filter fun b => !b.parts.isEmpty }
  if on then forEach (partDcs s3 q) (cluCycle true) s3 else forEach (partClus s3 q) (cluCycle false) s3

/-- The translations that the I/O dies hold for a partition are removed. -/
def dropIoXlat (q : Nat) (s : State) : State :=
  let f := fun (x : XUnit) =>
    let y := invalidate none (some q) x
    { y with inv := y.inv.filter fun i => match i.ap with | some a => apPart s a != some q | none => true }
  forEach (List.range 3) (fun s k => updX s (.portDie k) f) (updX s .leadIo f)

/-- The partition record once steps 4 to 6 of a reset are done (R416, R428): its session is kept (R413), and step 7 is to come. -/
def partCleared (p : Part) : Part := { st := p.st, session := p.session, resetting := p.resetting, cleared := true }

/-- The partition record after a reset. -/
def partAfter (p : Part) : Part := { st := p.st, session := p.session }

/-- The stacks and apertures of a partition are freed (R316); where a session ends, what its apertures had taken ends without a record (R294, R305). -/
def freePart (q : Nat) (hadSession : Bool) (s : State) : State :=
  let s1 := forEach (partAps s q) (fun s a => updAp (if hadSession then dropAp a s else s) a fun k => { k with part := none }) s
  forEach (partStacks s1 q) (fun s k => updStk s k fun x => { x with part := none, keepWarm := false, warm := false }) s1

/-- Whether a cluster of a partition has still to be switched on (R367). -/
def switchingOn (s : State) (q : Nat) : Bool :=
  (partClus s q).any fun dc => (getClu s dc).pwr.due || (getClu s dc).pwr.st == .turningOn

/-- The command of an aperture that a reset was for ends, where it is still in progress there (R316, R416): its session may have ended it (R305). -/
def finishReset (a op : Nat) (s : State) : State :=
  match (getAp s a).cur with
  | some c => if c.started ∧ c.opcode = op then finish a stOk (mkResult []) s else s
  | none => s

/-- Step 7 of a reset (R416): the clusters are on, and the partition enters CONFIG, or NONE for PART_DESTROY. -/
def resetDone (q : Nat) (s : State) : State :=
  let p := getPart s q
  match p.resetting with
  | none => s
  | some why =>
    if !p.cleared || switchingOn s q then s else
    let s2 := updPart s q partAfter
    match why with
    | .destroy a =>
      let s3 := setPart q .none caCommand (updPart s2 q fun p => { p with session := none })
      settleDev (finishReset a 0x41 (updPart (freePart q p.session.isSome s3) q fun _ => {}))
    | .command a => finishReset a 0x46 (setPart q .config caCommand s2)
    | _ => setPart q .config caSession s2

/-- PART_RESET_DRAINED (R416, steps 3 to 6): due once no packet of the partition is in flight; step 7 follows as the clusters are switched on. -/
def resetDrained (q : Nat) (s : State) : State :=
  match (getPart s q).resetting with
  | none => s
  | some why =>
    if (getPart s q).cleared then resetDone q s
    else if s.net.pkts.any (pktOf s q) then s else
    let destroy := match why with | .destroy _ => true | _ => false
    resetDone q (updPart (dropIoXlat q (resetClusters q (!destroy) s)) q partCleared)

/-- PART_RESET_DRAINED (R416). -/
def execPartResetDrained (q : Nat) (s : State) : Host.Outcome State Fault Refusal := live s (resetDrained q s)

/-! ### Ends of sessions (R304, R305) -/

/-- The device session ends: its keys are erased, and nothing else changes. -/
def endDevSession (s : State) : State := dropAp 0 (updDev s fun d => { d with session := none })

/-- A partition session ends in any way but by SESSION_END or PART_DESTROY: the partition is reset (R305). -/
def endPartSession (q : Nat) (s : State) : State :=
  let s1 := forEach (partAps s q) (fun s a => dropAp a s) (updPart s q fun p => { p with session := none })
  beginReset q .session s1

/-- A partition session ended by SESSION_END, once its reply has been written: the partition is reset and stays in CONFIG (R305). -/
def sessionEnded (a q : Nat) (s : State) : State :=
  let s1 := forEach (partAps s q) (fun s b => updAp (dropAp b s) b fun k => { k with taken := (getAp s b).taken })
    (updPart s q fun p => { p with session := none })
  beginReset q (.sessionEnd a) s1

/-- The session in force on an aperture ends (R304, R305). -/
def endSession (a : Nat) (s : State) : State :=
  if (apSession s a).isNone then s
  else match apPart s a with
    | some q => endPartSession q s
    | none => endDevSession s

/-- What a written reply brings about: the end of a session (R304, R305), or the reset that follows FW_ACTIVATE in SAFE-TALK (R403). -/
def afterReply (a : Nat) (r : Rec) (s : State) : State :=
  if r.status = stAuth ∧ (getAp s a).authRun = 8 then endSession a s
  else if r.code = 0x0010 ∧ r.status = stOk then
    match apPart s a with
    | some q => sessionEnded a q s
    | none => updAp (endDevSession s) a fun k => { k with taken := (getAp s a).taken }
  else if r.code = 0x0021 ∧ r.status = stOk ∧ s.dev.st = .safeTalk then updDev s fun d => { d with resetDue := true }
  else s

/-- REPLY_RECORD_WRITE (R295). -/
def replyWrite (a : Nat) (s : State) : State :=
  match writeReply a s with
  | none => s
  | some (s1, r) => advanceAp a (afterReply a r s1)

/-- REPLY_RECORD_WRITE (R295). -/
def execReplyRecordWrite (ap : Nat) (s : State) : Host.Outcome State Fault Refusal := live s (replyWrite ap s)

/-- PART_RESET (R416): answered STATE in device SALVAGE (R421). -/
def execPartReset (ap : Nat) (s : State) : Host.Outcome State Fault Refusal :=
  live s (cmdRun ap 0x0046 noRefs
    (fun s => partIn ap [.config, .ready, .running, .draining, .salvage] s && s.dev.st != .salvage)
    (fun _ s => match apPart s ap with
      | some q => beginReset q (.command ap) (startCmd ap q s)
      | none => s) s)

/-! ### UNIT_RESET (R414) -/

/-- What UNIT_RESET names: a core of the partition, or a cluster of it in bits [20:10], the bits outside that field being reserved (R308, R312). -/
def unitRefs (a : Nat) (c : Cmd) (s : State) : Option (Nat × Nat) :=
  let v := c.p 4 4
  firstRef [(32, decide (1 < c.p 0 1), 5),
    (36, decide (2 ^ 21 ≤ v) || (c.p 0 1 == 1 && v % 1024 != 0), 2),
    (36, !(lciOk v && lciPart s v == apPart s a), 5)]

/-- UNIT_RESET (R414): a core's reset is answered at once, a cluster's after its turn-on. -/
def unitReset (a : Nat) (c : Cmd) (s : State) : State :=
  let v := c.p 4 4
  if c.p 0 1 = 0 then finish a stOk (mkResult []) (coreReset v s)
  else
    let dc := v / 1024
    let s1 := startCmd a dc s
    if (getClu s dc).pwr.inReset then s1 else clusterReset dc s1

/-- UNIT_RESET (R414). -/
def execUnitReset (ap : Nat) (s : State) : Host.Outcome State Fault Refusal :=
  live s (cmdRun ap 0x0047 (unitRefs ap) (partIn ap [.ready, .running, .draining]) (unitReset ap) s)

end Sys2Proof.Machine
end

