-- ==== Sys2Proof/Machine/Bar0.lean ====
section
/-! DEFINITION. BAR0 (R281 to R283, R297), the ways the host ends a session from the bus (R305), the PCIe function's own resets and power states
(R279, R403), and single register writes (R475). -/

namespace Sys2Proof.Machine

/-! ### Aperture registers (R282) -/

/-- A field kept within a range. -/
def clampTo (lo hi v : Nat) : Nat := min hi (max lo v)

/-- The ring after `AP_CTRL.EN` goes from 0 to 1: head and tail are 0. What has been written since the last signal stays to be signalled (R283). -/
def ringEnabled (k : Aperture) : Aperture := { k with en := true, head := 0, tail := 0, evSeq := 0 }

/-- A write of `AP_CTRL` apart from `ABANDON` (R282). -/
def apCtrlFields (a v : Nat) (k : Aperture) : Aperture :=
  let log := clampTo 6 16 (natBits v 5 1)
  let clash := k.en && log != k.log2n
  let k1 := { k with
    log2n := if k.en then k.log2n else log
    vec := if natBits v 10 6 = a then none else some (natBits v 10 6)
    modn := max 1 (natBits v 23 16)
    modt := max 1 (natBits v 35 24)
    mask := natBit v 36
    ign := clash || (k.ign && !natBit v 49) }
  if natBit v 0 then (if k.en then k1 else ringEnabled k1) else { k1 with en := false }

/-- `AP_CTRL.ABANDON` (R287, R305): the session ends, and the units of packet `NEXT` that have landed are gone. -/
def abandon (a : Nat) (s : State) : State :=
  updAp (endSession a s) a fun k => { k with units := smapKeep (fun u => u / 256 != nextSlot k) k.units }

/-- A write of `AP_CTRL` (R282). -/
def apCtrlWrite (a v : Nat) (s : State) : State :=
  let s1 := updAp s a (apCtrlFields a v)
  if natBit v 48 then abandon a s1 else s1

/-- A write of `AP_RING_HEAD` (R297). -/
def ringHead (v : Nat) (k : Aperture) : Aperture :=
  if sub32 (v % 2 ^ 32) k.head ≤ sub32 k.tail k.head then { k with head := v % 2 ^ 32 } else { k with headErr := true }

/-- A write of `AP_RING_BASE` (R282). -/
def ringBaseWrite (v : Nat) (k : Aperture) : Aperture :=
  if k.en then { k with ign := true } else { k with ringBase := v / 4096 * 4096 }

/-- A write of one register of an aperture block. -/
def apRegWrite (a u v : Nat) (s : State) : State :=
  match u with
  | 0x00 => apCtrlWrite a v s
  | 0x08 => updAp s a fun k => { k with headErr := k.headErr && !natBit v 3 }
  | 0x10 => updAp s a (ringBaseWrite v)
  | 0x18 => updAp s a (ringHead v)
  | 0x30 => updAp s a fun k => { k with drops := w64 v }
  | 0x38 => updAp s a fun k => { k with authFail := w64 v }
  | 0x40 => updAp s a fun k => { k with evLost := w64 v }
  | _ => s

/-- `AP_CTRL` as read. -/
def apCtrlRead (a : Nat) (k : Aperture) : Nat :=
  bit k.en + 2 * k.log2n + 2 ^ 6 * apVec k a + 2 ^ 16 * k.modn + 2 ^ 24 * k.modt + 2 ^ 36 * bit k.mask + 2 ^ 49 * bit k.ign

/-- `AP_STATUS` as read. -/
def apStatusRead (s : State) (a : Nat) : Nat :=
  let k := getAp s a
  let waits := !k.recs.isEmpty || ((!k.evq.isEmpty || decide (0 < k.evNew)) && (apSession s a).isSome)
  bit (apSession s a).isSome + 2 * bit ((landedLen k).isSome && !packetLanded k) + 4 * bit (waits && !ringSpace k) + 8 * bit k.headErr
    + 2 ^ 8 * (apPart s a).getD 0 + 2 ^ 11 * bit (apPart s a).isSome + 2 ^ 12 * bit (isLead s a) + 2 ^ 16 * k.authRun

/-! ### The other registers of BAR0 (R281) -/

/-- `HIF_IDENT` (R281). -/
def hifIdent (s : State) : Nat := s.rev + 2 ^ 8 * s.mdies + 2 ^ 11 * s.ports + 2 ^ 16

/-- `HIF_STATE.S` of a stack (R281). -/
def stackCode (s : State) (k : Nat) : Nat :=
  if (getStk s k).unavailable then 7 else (getStk s k).part.getD 6

/-- `HIF_STATE` (R281, R310, R311). -/
def hifState (s : State) : Nat :=
  s.dev.st.code + 2 ^ 4 * (if s.dev.committing then 8 else s.dev.bootStep)
    + (List.range 6).foldl (fun t q => t + 2 ^ (16 + 3 * q) * (getPart s q).st.code + 2 ^ (36 + 3 * q) * stackCode s q) 0

/-- The 8 bytes at an 8-byte offset of BAR0. -/
def bar0Read (s : State) (o : Nat) : Nat :=
  if o = 0 then hifIdent s
  else if o = 8 then hifState s
  else if o = 0x10 then s.dev.time
  else if o = 0x18 then s.pcie.drops.toNat
  else if 0x1_0000 ≤ o ∧ o < 0x1_1000 then
    let a := (o - 0x1_0000) / 0x100
    let k := getAp s a
    match o % 0x100 with
    | 0x00 => apCtrlRead a k
    | 0x08 => apStatusRead s a
    | 0x10 => k.ringBase
    | 0x18 => k.head
    | 0x20 => k.tail
    | 0x28 => k.next + 2 ^ 32 * apLimit k
    | 0x30 => k.drops.toNat
    | 0x38 => k.authFail.toNat
    | 0x40 => k.evLost.toNat
    | _ => 0
  else if 0x2_0000 ≤ o ∧ o < 0x2_0200 then
    let i := (o - 0x2_0000) / 4
    (msixWord s i).toNat + 2 ^ 32 * (msixWord s (i + 1)).toNat
  else if o = 0x2_1000 then s.pcie.msixPend.foldl (fun t v => t + 2 ^ v) 0
  else 0

/-- A read of `n` bytes at an offset of BAR0 or BAR2 by the host: only an aligned read of 8 bytes of BAR0 finds a register, any other returns zeros
(R281, R284). -/
def barRead (s : State) (bar2 : Bool) (o n : Nat) : List Byte :=
  if !bar2 ∧ n = 8 ∧ o % 8 = 0 ∧ barUp s then leBytes 8 (bar0Read s o) else List.replicate n 0

/-- A word of the MSI-X table written; a vector unmasked with its pending bit set is signalled (R278). -/
def msixWrite (i v : Nat) (s : State) : State :=
  let w : W32 := BitVec.ofNat 32 (if i % 4 = 3 then v % 2 else v)
  let s1 := { s with pcie := { s.pcie with msixTable := smapSet (msixDefault i) s.pcie.msixTable i w } }
  if i % 4 = 3 ∧ v % 2 = 0 ∧ s.pcie.msixPend.contains (i / 4) then
    signalVec (i / 4) { s1 with pcie := { s1.pcie with msixPend := setDel s1.pcie.msixPend (i / 4) } }
  else s1

/-- A write of one 64-bit register of BAR0 (R281). -/
def bar0Write (o v : Nat) (s : State) : State :=
  if o = 0x18 then { s with pcie := { s.pcie with drops := w64 v } }
  else if 0x1_0000 ≤ o ∧ o < 0x1_1000 then apRegWrite ((o - 0x1_0000) / 0x100) (o % 0x100) v s
  else if 0x2_0000 ≤ o ∧ o < 0x2_0200 then
    let i := (o - 0x2_0000) / 4
    msixWrite (i + 1) (v / 2 ^ 32) (msixWrite i (v % 2 ^ 32) s)
  else s

/-- AP_RING_HEAD_WRITE (R297). -/
def execApRingHeadWrite (ap v : Nat) (s : State) : Host.Outcome State Fault Refusal :=
  live s (if barUp s && decide (ap < 16) then updAp s ap (ringHead v) else s)

/-- AP_CTRL_EN (R282): a write of `AP_CTRL`. -/
def execApCtrlEn (ap : Nat) (v : W64) (s : State) : Host.Outcome State Fault Refusal :=
  live s (if barUp s && decide (ap < 16) then apCtrlWrite ap v.toNat s else s)

/-- AP_CTRL_ABANDON (R305). -/
def execApCtrlAbandon (ap : Nat) (s : State) : Host.Outcome State Fault Refusal :=
  live s (if barUp s && decide (ap < 16) then abandon ap s else s)

/-! ### The PCIe function (R279, R305, R403) -/

/-- An aperture after a function level reset (R305): AP_CTRL, AP_RING_BASE, AP_RING_HEAD and NEXT take their reset values. What an aperture without a
session has taken is still answered (R294). DEDUCED: units that have landed in the window that is gone are not kept. -/
def apReset (k : Aperture) : Aperture :=
  { k with
    en := false, log2n := 6, vec := none, modn := 1, modt := 10, mask := false, ign := false
    ringBase := 0, head := 0, next := 0, units := [] }

/-- A function level reset (R305): every session ends, and the apertures take their reset values. -/
def functionReset (s : State) : State :=
  let s1 := forEach (List.range 6) (fun s q => if (getPart s q).session.isSome then endPartSession q s else s)
    (if s.dev.session.isSome then endDevSession s else s)
  forEach (List.range 16) (fun s a => updAp s a apReset) s1

/-- FUNCTION_LEVEL_RESET (R305). -/
def execFunctionLevelReset (s : State) : Host.Outcome State Fault Refusal :=
  live s (functionReset s)

/-- PCIE_FUNDAMENTAL_RESET (R403): the link retrains, with the effect of a function level reset; the function is in D0 after it. -/
def execPcieFundamentalReset (s : State) : Host.Outcome State Fault Refusal :=
  live s (functionReset { s with pcie := { s.pcie with d3hot := false } })

/-- PCIE_D3HOT_ENTER (R279). -/
def execPcieD3hotEnter (s : State) : Host.Outcome State Fault Refusal :=
  live s { s with pcie := { s.pcie with d3hot := true } }

/-- PCIE_D0_RETURN (R279): the registers stand as they stood. -/
def execPcieD0Return (s : State) : Host.Outcome State Fault Refusal := live s { s with pcie := { s.pcie with d3hot := false } }

/-! ### REGISTER_WRITE (R281, R475) -/

/-- A write of a device physical address that names registers (R187, R475): the units it covers whole are written in order; a write that
covers part of a unit, and one of a cluster that takes none (R177), changes nothing. -/
def paRegWrite (addr : Nat) (bs : List Byte) (s : State) : State :=
  let data := bs.map some
  match paDecode s addr with
  | .clu dc off =>
    if cluWritable s dc && decide (off + bs.length ≤ 0x1000) then
      match coverUnits (fun _ => 8) off data with
      | some us => us.foldl (fun s u => cluWriteUnit dc u.1 u.2 s) s
      | none => s
    else s
  | .die d off =>
    if off + bs.length ≤ 0x1_0000 then
      match coverUnits (fun _ => 8) off data with
      | some us => us.foldl (fun s u => dieWriteUnit d u.1 u.2 s) s
      | none => s
    else s
  | .spm c off => if 0x7000 ≤ off ∧ off + bs.length ≤ 0x8000 then (outsideWrite .write c off data .leadIo s).1 else s
  | _ => s

/-- REGISTER_WRITE (R475): to BAR0, whole aligned registers only (R281); else to a device physical address. -/
def execRegisterWrite (bar0 : Bool) (addr : Nat) (bytes : List Byte) (s : State) : Host.Outcome State Fault Refusal :=
  live s (if bar0 then
      if barUp s && addr % 8 == 0 && bytes.length == 8 then bar0Write addr (leNat bytes) s else s
    else paRegWrite addr bytes s)

end Sys2Proof.Machine
end

