-- ==== Sys2Proof/Machine/HostData.lean ====
section
/-! DEFINITION. What the host commands share: the encryption of DMA chunks (R303, R323), the flash and its wear (R436, R446), the identity chain
(R426), measurement (R428, R429), and the powers that settings govern. -/

namespace Sys2Proof.Machine

/-! ### DMA chunks (R303, R323) -/

/-- The additional data of a chunk (R303): the device address of the command, the chunk's index, its bytes and its space. -/
def chunkAad (addr i n space : Nat) : List Byte :=
  leBytes 8 ((addr + 4096 * i) % 2 ^ 48) ++ leBytes 4 n ++ leBytes 1 space ++ [0, 0, 0]

/-- A chunk for the host: its ciphertext and tag. -/
def sealChunk (ss : Session) (a count addr space i : Nat) (data : List Byte) : List Byte × List Byte :=
  gcmSeal (sessKey ss a 1) (gcmNonce count i a 3) (chunkAad addr i data.length space) data

/-- A chunk from the host in the clear, where its tag passes. -/
def openChunk (ss : Session) (a count addr space i : Nat) (data tag : List Byte) : Option (List Byte) :=
  gcmOpen (sessKey ss a 0) (gcmNonce count i a 2) (chunkAad addr i data.length space) data (bytesAt tag 0 16)

/-- One chunk sent to the host: the ciphertext and then its tag, where it has one (R323). -/
def postChunk (ss : Session) (a count addr space haddr : Nat) (taddr : Option Nat) (i : Nat) (data : List Byte) (s : State) : State :=
  let c := sealChunk ss a count addr space i data
  let s1 := postWrite (haddr + 4096 * i) c.1 s
  match taddr with
  | some t => postWrite (t + 16 * i) c.2 s1
  | none => s1

/-! ### The turns of the transfers (R323) -/

/-- Whether a transfer in progress on an aperture can be served: a chunk of it can move, or what it has sent has been answered. In D3hot the host's
memory is out of reach (R279). -/
def chunkWaits (s : State) (a : Nat) : Bool :=
  match (getAp s a).cur with
  | some c =>
    c.started && !apHeld s a &&
      match c.job, c.bcast with
      | some j, _ => jobReady s j
      | none, some b => branchesDone s b
      | none, none =>
        !s.pcie.d3hot && (c.post.isSome || ((apSession s a).isSome && [0x50, 0x51, 0x52, 0x53, 0x20].contains c.opcode))
  | none => false

/-- Whether an aperture's transfer is the one that the lead I/O die serves next: round-robin, one chunk at a time. -/
def chunkNext (s : State) (a : Nat) : Bool := nextInTurn s.pcie.chunkTurn (chunkWaits s) == some a

/-- The lead I/O die has served a transfer of an aperture. -/
def tookChunk (a : Nat) (s : State) : State := { s with pcie := { s.pcie with chunkTurn := a } }

/-- One chunk of a block that a command sends to the host, encrypted under its session, else in the clear (R301, R303); the command's reply after the
last. -/
def postNext (a : Nat) (c : Cmd) (p : PostJob) (s : State) : State :=
  let i := c.moved / 4096
  let d := p.left.take 4096
  let s1 := match (if c.enc then apSession s a else none) with
    | none => postWrite (p.haddr + 4096 * i) d s
    | some ss => postChunk ss a c.count 0 0 p.haddr p.taddr i d s
  if p.left.length ≤ 4096 then finish a stOk p.result s1
  else updCur a (fun k => { k with moved := k.moved + 4096, post := some { p with left := p.left.drop 4096 } }) s1

/-- The same while it is the aperture's turn. -/
def postTurns (a : Nat) : Nat → State → State
  | 0, s => s
  | n + 1, s =>
    match (getAp s a).cur.bind fun c => c.post.map fun p => (c, p) with
    | some (c, p) => if chunkNext s a then postTurns a n (postNext a c p (tookChunk a s)) else s
    | none => s

/-- A block that a command sends to the host, chunk by chunk, and then its reply. What its turn does not let it send at once follows by DMA_CHUNK. -/
def sendBlock (a haddr : Nat) (taddr : Option Nat) (data result : List Byte) (s : State) : State :=
  if data.isEmpty then finish a stOk result s
  else postTurns a (ceilDiv data.length 4096) (updCur a (fun k => { k with started := true, post := some ⟨haddr, taddr, data, result⟩ }) s)

/-! ### The identity chain (R426) -/

/-- The bytes of the certificate at an offset, as its length octets give them; 0 where none begins. -/
def derLen (s : State) (o : Nat) : Nat :=
  match derHead (flashBytes s o 5) with
  | some (0x30, h, n) => h + n
  | _ => 0

/-- The length of the concatenation of certificates from an offset of the identity area (the fuel bounds their number). -/
def chainLen (s : State) : Nat → Nat → Nat
  | 0, o => o
  | fuel + 1, o =>
    let n := derLen s o
    if n = 0 ∨ 0x1_0000 < o + n then o else chainLen s fuel (o + n)

/-- The certificate chain in the identity area. -/
def chainBytes (s : State) : List Byte := flashBytes s 0 (chainLen s 64 0)

/-- The serial number as its 8 bytes. -/
def serialBytes (s : State) : List Byte := leBytes 8 s.serial

/-- The sealing key (R424). -/
def sealKey (s : State) : List Byte := deviceKey s "KNSEAL" 32

/-- The fuses of the identity private key (R424): it is sealed by AES-256-GCM under the sealing key. -/
def sealedIdentity (s : State) : List Byte × List Byte :=
  gcmSeal (sealKey s) (Config.sealNonce s.serial) [] (beBytes 48 (Config.identityPriv s.serial))

/-- The identity private key as the security engine unseals it (R424). -/
def identityPriv (s : State) : Nat :=
  let x := sealedIdentity s
  ((gcmOpen (sealKey s) (Config.sealNonce s.serial) [] x.1 x.2).map beNat).getD 0

/-- The part's identity public key (R424). -/
def identityKey (s : State) : List Byte := ecPublic (identityPriv s)

/-- A signature by the part's identity key over a digest (R425). -/
def identitySign (s : State) (digest : List Byte) : List Byte :=
  ecdsaSign (identityPriv s) (Config.signNonce s.serial digest) digest

/-- VERSION read from a slot, or 0 where the slot begins with no image (R439). -/
def slotVersion (s : State) (n : Nat) : Nat :=
  if flashBytes s (slotBase n) 4 = ascii "KNFW" then leNat (flashBytes s (slotBase n + 8) 4) else 0

/-- The slot that `ACTIVE` does not name (R439). -/
def inactiveSlot (s : State) : Nat := 1 - s.dev.active % 2

/-! ### Measurement (R428, R429) -/

/-- A measurement register: it starts as 48 zero bytes. -/
def measReg (bs : List Byte) : List Byte := bytesAt bs 0 48

/-- A log entry (R429). -/
def measEntry (reg src code : Nat) (detail digest : List Byte) : List Byte :=
  leBytes 1 reg ++ leBytes 1 src ++ leBytes 2 code ++ bytesAt detail 0 12 ++ bytesAt digest 0 48

/-- A register extended by an entry (R429). -/
def extended (reg entry : List Byte) : List Byte := bytesAt (sha384 (measReg reg ++ sha384 entry)) 0 48

/-- A device register extended; the log keeps 256 entries (R429). -/
def extendDev (i src code : Nat) (detail digest : List Byte) (s : State) : State :=
  let e := measEntry i src code detail digest
  updDev s fun d => { d with
    meas := smapInsert d.meas i (extended (smapGet [] d.meas i) e)
    dlog := if d.dlog.length < 256 then d.dlog ++ [⟨e⟩] else d.dlog
    dlogOvf := d.dlogOvf || decide (256 ≤ d.dlog.length) }

/-- A partition register extended: P1 where `one`, else P0; the log keeps 1,024 entries (R429). -/
def extendPart (q : Nat) (one : Bool) (src code : Nat) (detail digest : List Byte) (s : State) : State :=
  let e := measEntry (if one then 9 else 8) src code detail digest
  updPart s q fun p => { p with
    p0 := if one then p.p0 else extended p.p0 e
    p1 := if one then extended p.p1 e else p.p1
    plog := if p.plog.length < 1024 then p.plog ++ [⟨e⟩] else p.plog
    plogOvf := p.plogOvf || decide (1024 ≤ p.plog.length) }

/-- DETAIL of a command's entry: its SEQ (R429). -/
def cmdDetail (c : Cmd) : List Byte := leBytes 4 c.seq

/-- The parameter area with fields replaced, as a reply echoes it (R308, R429). -/
def echoParams (c : Cmd) (fs : List (Nat × Nat × Nat)) : List Byte :=
  (List.range c.params.length).map fun i =>
    match fs.find? fun f => decide (f.1 ≤ i) && decide (i < f.1 + f.2.1) with
    | some f => BitVec.ofNat 8 (f.2.2 / 256 ^ (i - f.1) % 256)
    | none => c.params.getD i 0

/-- D3 extended by a command (R428). -/
def measureCmd (c : Cmd) (s : State) : State := extendDev 3 3 c.opcode (cmdDetail c) (sha384 c.params) s

end Sys2Proof.Machine
end

