-- ==== Sys2Proof/Machine/HostDev.lean ====
section
/-! DEFINITION. The commands about the device: identity, attestation and key exchange, the event log, firmware, the owner lock, and the power and
thermal settings (R312, R313, R315, R400, R426 to R446, R470). -/

namespace Sys2Proof.Machine

/-! ### IDENTITY and STATUS -/

/-- The length of the chain that IDENTITY reports: 0 for an invalid one (R426). -/
def chainReport (s : State) : Nat := if s.dev.chainValid then (chainBytes s).length else 0

/-- IDENTITY (R312, R439): the chain is sent only where HADDR is given and HLEN is enough. -/
def identityRun (a : Nat) (c : Cmd) (s : State) : State :=
  let n := chainReport s
  sendBlock a (c.p 0 8) none (if c.p 0 8 ≠ 0 ∧ 0 < n ∧ n ≤ c.p 8 8 then chainBytes s else [])
    (mkResult [(0, 1, s.rev), (1, 1, s.mdies), (2, 1, s.ports), (4, 8, s.serial), (12, 4, s.dev.version),
      (16, 4, slotVersion s (inactiveSlot s)), (20, 4, n)]) s

/-- IDENTITY (R312). -/
def execIdentity (ap : Nat) (s : State) : Host.Outcome State Fault Refusal :=
  live s (cmdRun ap 0x0001 noRefs (fun _ => true) (identityRun ap) s)

/-- The unavailable stacks as a mask. -/
def unavailableMask (s : State) : Nat :=
  (List.range 6).foldl (fun m k => m + 2 ^ k * bit (getStk s k).unavailable) 0

/-- STATUS (R312). -/
def execStatus (ap : Nat) (s : State) : Host.Outcome State Fault Refusal :=
  live s (cmdRun ap 0x0002 noRefs (fun _ => true) (fun _ s =>
    finish ap stOk (mkResult [(0, 8, hifState s), (8, 1, s.dev.active), (9, 1, s.dev.failCode), (10, 1, unavailableMask s)]) s) s)

/-! ### Attestation and key exchange (R431 to R433) -/

/-- Whether the owner lock is set (R434). -/
def lockSet (s : State) : Bool := s.dev.lockBits % 2 == 1

/-- The current owner's slot (R434): the lowest that holds a key hash and is not released. -/
def ownerSlot (s : State) : Option Nat :=
  (List.range 4).find? fun i => !(smapGet [] s.dev.ownerSlots i).isEmpty && !s.dev.ownerReleased.contains i

/-- The report that ATTEST returns on an aperture, without its signature (R431). -/
def reportBody (s : State) (part : Option Nat) (nonce : List Byte) : List Byte :=
  let p := match part with | some q => getPart s q | none => {}
  let log := s.dev.dlog ++ (if part.isSome then p.plog else [])
  let ovf := s.dev.dlogOvf || (part.isSome && p.plogOvf)
  let flags := bit (lockSet s) + 2 * bit ovf + 4 * bit s.dev.fellBack + 8 * bit s.dev.fastPath + 16 * bit s.dev.chainValid
  ascii "KNAT" ++ leBytes 2 1 ++ leBytes 1 (bit part.isSome) ++ leBytes 1 (part.getD 0xFF) ++ serialBytes s ++ leBytes 8 s.dev.time
    ++ bytesAt nonce 0 32 ++ leBytes 1 s.rev ++ leBytes 1 s.mdies ++ leBytes 1 s.ports ++ leBytes 1 flags ++ leBytes 4 s.dev.version
    ++ leBytes 1 s.dev.svn ++ leBytes 1 s.dev.rollback ++ leBytes 1 ((ownerSlot s).getD 0xFF) ++ leBytes 1 s.dev.lockBits
    ++ leBytes 4 log.length ++ leBytes 8 0 ++ (List.range 5).flatMap (fun i => measReg (smapGet [] s.dev.meas i))
    ++ (if part.isSome then measReg p.p0 ++ measReg p.p1 else []) ++ log.flatMap (·.bytes)

/-- The report with its signature by the identity key (R431). -/
def report (s : State) (part : Option Nat) (nonce : List Byte) : List Byte :=
  let b := reportBody s part nonce
  b ++ bytesAt (identitySign s (sha384 b)) 0 96

/-- ATTEST (R431): the report is written only where HLEN is at least its length; what was delivered is remembered for KEX (R432). -/
def attestRun (a : Nat) (c : Cmd) (s : State) : State :=
  let r := report s (apPart s a) (bytesAt c.params 0 32)
  let fits := decide (r.length ≤ c.p 40 8)
  sendBlock a (c.p 32 8) none (if fits then r else []) (mkResult [(0, 4, r.length)])
    (updAp s a fun k => { k with lastReport := if fits then sha384 r else k.lastReport })

/-- ATTEST (R431). -/
def execAttest (ap : Nat) (s : State) : Host.Outcome State Fault Refusal :=
  live s (cmdRun ap 0x0003 noRefs (fun _ => true) (attestRun ap) s)

/-- The references of KEX (R432): the key is a point of the curve, and HLEN is at least 192. -/
def kexRefs (c : Cmd) (_ : State) : Option (Nat × Nat) :=
  firstRef [(32, !onCurve (bytesAt c.params 0 96), 5), (136, decide (c.p 104 8 < 192), 5)]

/-- Where KEX is legal (R302, R312). -/
def kexLegal (a : Nat) (s : State) : Bool :=
  (apSession s a).isNone && (a == 0 || partIn a [.config] s)

/-- The transcript of a key exchange (R432). -/
def kexTranscript (s : State) (a : Nat) (host own : List Byte) : List Byte :=
  ascii "KNKEX1" ++ serialBytes s ++ leBytes 1 a ++ leBytes 1 ((apPart s a).getD 0xFF) ++ bytesAt host 0 96 ++ bytesAt own 0 96
    ++ bytesAt (getAp s a).lastReport 0 48

/-- The counts of an aperture begin afresh with its session (R303). -/
def freshCounts (k : Aperture) : Aperture := { k with pktCount := 0, recCount := 0, authRun := 0 }

/-- KEX (R302, R432): the ephemeral key is a free value; the session takes effect after its reply. -/
def kexRun (a : Nat) (c : Cmd) (s : State) : State :=
  let x := drawFree s
  let eph := Config.fresh x.1
  let host := bytesAt c.params 0 96
  let own := bytesAt (ecPublic eph) 0 96
  let h := sha384 (kexTranscript s a host own)
  let ss : Session := ⟨hmac384 h (bytesAt (ecdh eph host) 0 48)⟩
  let s1 := finish a stOk (mkResult []) (postWrite (c.p 96 8) (own ++ bytesAt (identitySign s h) 0 96) x.2)
  let s2 := match apPart s1 a with
    | some q => forEach (partAps s1 q) (fun s b => updAp s b freshCounts) (updPart s1 q fun p => { p with session := some ss })
    | none => updAp (updDev s1 fun d => { d with session := some ss }) a freshCounts
  updAp s2 a fun k => { k with recClear := true }

/-- KEX (R432). -/
def execKex (ap : Nat) (s : State) : Host.Outcome State Fault Refusal :=
  live s (cmdRun ap 0x0004 kexRefs (kexLegal ap) (kexRun ap) s)

/-- SESSION_END (R305): its reply is written under the old key, and then the session ends. -/
def execSessionEnd (ap : Nat) (s : State) : Host.Outcome State Fault Refusal :=
  live s (cmdRun ap 0x0010 noRefs (fun s => ap == 0 || partIn ap [.config, .ready] s) (fun _ s => finish ap stOk (mkResult []) s) s)

/-! ### The event log (R470) -/

/-- The entries from one whose SEQ has the low 32 bits `first` (R470): from the oldest where that one has been overwritten. -/
def logFrom (first : Nat) (log : List LogEnt) : List LogEnt :=
  match log with
  | [] => []
  | e :: _ =>
    let d := sub32 first (e.seq % 2 ^ 32)
    if d < log.length then log.drop d else if d < 2 ^ 31 then [] else log

/-- LOG_READ (R312, R470): the count used (DESIGN CHOICE: the entries returned, in bytes 8 to 15) and the SEQ, of 8 bytes, of the first entry returned. -/
def logReadRun (a : Nat) (c : Cmd) (s : State) : State :=
  let es := (logFrom (c.p 0 4) s.dev.log).take (clampTo 1 4096 (c.p 4 4))
  sendBlock a (c.p 8 8) (some (c.p 16 8)) (es.flatMap logBytes) (mkResult [(0, 8, (es.head?.map (·.seq)).getD (c.p 0 4)), (8, 4, es.length)]) s

/-- LOG_READ (R470). -/
def execLogRead (ap : Nat) (s : State) : Host.Outcome State Fault Refusal :=
  live s (cmdRun ap 0x0011 noRefs (fun _ => true) (logReadRun ap) s)

/-- LOG_CLEAR (R312): the ring, and the error logs of the named stacks. -/
def logClearRun (a : Nat) (c : Cmd) (s : State) : State :=
  let m := c.p 0 1
  let s1 := if natBit m 0 then updDev s fun d => { d with log := [] } else s
  finish a stOk (mkResult [(0, 1, m)]) <|
    forEach ((List.range 6).filter fun k => natBit m (k + 1)) (fun s k => memLogClear k s) s1

/-- LOG_CLEAR (R312). -/
def execLogClear (ap : Nat) (s : State) : Host.Outcome State Fault Refusal :=
  live s (cmdRun ap 0x0012 (fun c _ => firstRef [(32, natBit (c.p 0 1) 7, 2)]) (fun _ => true) (logClearRun ap) s)

/-! ### Firmware (R315, R439, R440, R445) -/

/-- The partitions RUNNING or DRAINING, as a mask. -/
def busyParts (s : State) : Nat :=
  (List.range 6).foldl (fun m q => m + 2 ^ q * bit ((getPart s q).st == .running || (getPart s q).st == .draining)) 0

/-- A command on firmware answered under R315 and R445, or run. -/
def fwRun (a op : Nat) (refs : Cmd → State → Option (Nat × Nat)) (body : Cmd → State → State) (s : State) : State :=
  cmdRun a op refs (fun _ => true) (fun c s =>
    if !(devIn [.safeTalk, .config, .ready] s && busyParts s == 0) then finish a stState (stateResult s none (if busyParts s = 0 then 0 else Config.busyObstacle (busyParts s))) s
    else if lockSet s then finish a stRefused (mkResult [(0, 1, 1)]) s
    else if s.dev.supplyLost then finish a stRefused (mkResult [(0, 1, 2)]) s
    else body c s) s

/-- The references of FW_WRITE (R322, R440). -/
def fwWriteRefs (c : Cmd) (_ : State) : Option (Nat × Nat) :=
  firstRef [(32, c.p 0 4 % 4096 != 0 || decide (slotSize ≤ c.p 0 4), 5),
    (36, c.p 4 4 % 16 != 0 || c.p 4 4 == 0 || decide (slotSize < c.p 0 4 + c.p 4 4), 5),
    (40, c.p 8 8 % 16 != 0, 5), (48, c.p 16 8 % 16 != 0, 5)]

/-- FW_WRITE (R440): it starts, for the inactive slot; its chunks follow. -/
def execFwWrite (ap : Nat) (s : State) : Host.Outcome State Fault Refusal :=
  live s (fwRun ap 0x0020 fwWriteRefs (fun _ s => startCmd ap (inactiveSlot s) s) s)

/-- FW_ACTIVATE (R428, R439): boot control is written and D3 extended. -/
def fwActivateRun (a : Nat) (c : Cmd) (s : State) : State :=
  finish a stOk (mkResult []) (measureCmd c (writeBootControl (updDev s fun d => { d with active := c.p 0 1 })))

/-- FW_ACTIVATE (R439): naming the active slot is a reference to nothing. -/
def execFwActivate (ap : Nat) (s : State) : Host.Outcome State Fault Refusal :=
  live s (fwRun ap 0x0021 (fun c s => firstRef [(32, c.p 0 1 != inactiveSlot s, 5)]) (fwActivateRun ap) s)

/-! ### The owner lock (R434, R435) -/

/-- The references of OWNER_LOCK (R425, R434): the action, a point of the curve; a query carries zeros. -/
def lockRefs (c : Cmd) (_ : State) : Option (Nat × Nat) :=
  let act := c.p 0 1
  let used := fun (o n : Nat) => (bytesAt c.params o n).any (· != 0)
  firstRef [(32, decide (4 < act), 5), (40, act == 0 && used 8 96, 2), (136, act == 0 && used 104 96, 2),
    (40, act != 0 && !onCurve (bytesAt c.params 8 96), 5)]

/-- RESULT of OWNER_LOCK (R434). -/
def lockResult (s : State) : List Byte :=
  mkResult [(0, 1, bit (lockSet s)), (1, 1, (ownerSlot s).getD 0xFF), (2, 1, s.dev.lockBits), (3, 1, s.dev.ownerSlots.length)]

/-- The lowest empty owner slot. -/
def emptySlot (s : State) : Option Nat := (List.range 4).find? fun i => (smapGet [] s.dev.ownerSlots i).isEmpty

/-- Whether the signature of an action passes for a slot (R434). -/
def lockSigned (c : Cmd) (s : State) (slot : Nat) : Bool :=
  ecdsaOk (bytesAt c.params 8 96)
    (sha384 (ascii "KNOWN1" ++ serialBytes s ++ leBytes 1 (c.p 0 1) ++ leBytes 1 s.dev.lockBits ++ leBytes 1 slot)) (bytesAt c.params 104 96)

/-- Whether the key hashes to the current owner's slot, and the signature passes. -/
def lockOwner (c : Cmd) (s : State) : Option Nat :=
  match ownerSlot s with
  | none => none
  | some i =>
    if bytesAt (sha384 (bytesAt c.params 8 96)) 0 48 = smapGet [] s.dev.ownerSlots i ∧ lockSigned c s i then some i else none

/-- OWNER_LOCK (R434): STATE first, then REFUSED, then the burn, which D3 measures (R428). -/
def lockRun (a : Nat) (c : Cmd) (s : State) : State :=
  let act := c.p 0 1
  let refuse := finish a stRefused (mkResult [(0, 1, 1)]) s
  let obst := fun (n : Nat) => finish a stState (stateResult s none n) s
  let done := fun (s' : State) => finish a stOk (lockResult s') (measureCmd c s')
  match act with
  | 0 => finish a stOk (lockResult s) s
  | 1 =>
    if (ownerSlot s).isSome then obst 1 else
    match emptySlot s with
    | none => obst 1
    | some i =>
      if lockSigned c s i then
        done (updDev s fun d => { d with
          ownerSlots := smapSet [] d.ownerSlots i (bytesAt (sha384 (bytesAt c.params 8 96)) 0 48) })
      else refuse
  | 4 =>
    if lockSet s then obst 2 else
    match lockOwner c s with
    | none => refuse
    | some i => done (updDev s fun d => { d with ownerReleased := setIns d.ownerReleased i })
  | _ =>
    if decide (act = 2) == lockSet s then obst 2
    else if 128 ≤ s.dev.lockBits then refuse
    else if (lockOwner c s).isSome then done (updDev s fun d => { d with lockBits := d.lockBits + 1 })
    else refuse

/-- OWNER_LOCK (R434). -/
def execOwnerLock (ap : Nat) (s : State) : Host.Outcome State Fault Refusal :=
  live s (cmdRun ap 0x0022 lockRefs (fun _ => true) (lockRun ap) s)

/-! ### Power and thermal settings (R313, R400) -/

/-- Whether an ORDER is a permutation. -/
def orderOk (o : Nat) : Bool := [0, 1, 2].all (classOrder o).contains

/-- The floors lowered in reverse priority order until their sum is at most CAP (R313). -/
def lowerFloors (cap : Nat) (order : List Nat) (p : Power) : Power :=
  order.reverse.foldl (fun p i =>
    let over_ := p.links.floor + p.memory.floor + p.compute.floor - cap
    updClass p i fun x => { x with floor := x.floor - over_ }) p

/-- The settings of POWER_SET clamped (R308, R313). -/
def powerSettings (c : Cmd) (s : State) : Power :=
  let cap := clampTo 50 (variantLimit s) (c.p 0 2)
  let cls := fun (i : Nat) (x : PClass) =>
    let ceil := min cap (c.p (6 + 4 * i) 2)
    { x with ceil := ceil, floor := min ceil (c.p (4 + 4 * i) 2) }
  lowerFloors cap (classOrder (c.p 2 1))
    { s.power with
      cap := cap, order := c.p 2 1, ramp := clampTo 5 40 (c.p 16 2)
      links := cls 0 s.power.links, memory := cls 1 s.power.memory, compute := cls 2 s.power.compute }

/-- RESULT of POWER_SET: the settings as used, in the layout of the parameters. -/
def powerResult (p : Power) : List Byte :=
  mkResult [(0, 2, p.cap), (2, 1, p.order), (4, 2, p.links.floor), (6, 2, p.links.ceil), (8, 2, p.memory.floor), (10, 2, p.memory.ceil),
    (12, 2, p.compute.floor), (14, 2, p.compute.ceil), (16, 2, p.ramp)]

/-- POWER_SET (R313). -/
def execPowerSet (ap : Nat) (s : State) : Host.Outcome State Fault Refusal :=
  live s (cmdRun ap 0x0030
    (fun c _ => firstRef [(34, decide (64 ≤ c.p 2 1), 2), (34, !orderOk (c.p 2 1), 5)])
    (devIn [.config, .ready, .running, .draining])
    (fun c s => finish ap stOk (powerResult (powerSettings c s)) { s with power := powerSettings c s }) s)

/-- THERMAL_SET (R312, R400). -/
def thermalRun (a : Nat) (c : Cmd) (s : State) : State :=
  let f := clampTo 30 70 (c.p 0 2)
  let h := min 240 (c.p 2 2)
  let r := clampTo 1 20 (c.p 4 2)
  let s1 := updPower s fun p => { p with warmFloor := f, warmHold := h, warmRate := r }
  finish a stOk (mkResult [(0, 2, f), (2, 2, h), (4, 2, r)]) (forEach (List.range 6) (fun s k => settleWarm k s) s1)

/-- THERMAL_SET (R400). -/
def execThermalSet (ap : Nat) (s : State) : Host.Outcome State Fault Refusal :=
  live s (cmdRun ap 0x0031 noRefs (devIn [.config, .ready, .running, .draining]) (thermalRun ap) s)

end Sys2Proof.Machine
end

