-- ==== Sys2Proof/Machine/HostMem.lean ====
section
/-! DEFINITION. The host's transfers: DMA_WRITE, DMA_READ, XLAT_LOAD and FW_WRITE by chunks (R321 to R324, R440), and BCAST_WRITE (R169, R325). -/

namespace Sys2Proof.Machine

/-! ### References (R308, R322) -/

/-- The references of DMA_WRITE and DMA_READ (R308, R322): the device address with its space, LEN, HADDR and TADDR. -/
def dmaRefs (a : Nat) (c : Cmd) (s : State) : Option (Nat × Nat) :=
  let v := c.p 0 8
  let sp := natBits v 50 48
  let x := natBits v 47 0
  let n := c.p 8 8
  let lenBad := n % 16 != 0 || n == 0 || decide (2 ^ 32 ≤ n)
  firstRef [(32, natBits v 63 51 != 0, 2), (32, !(sp == 3 || sp == 4) || x % 16 != 0, 5), (40, lenBad, 5),
    (32, (if sp = 3 then !spmRangeOk s (apPart s a) x n else decide (2 ^ 48 < x + n)), 5),
    (48, c.p 16 8 % 16 != 0, 5), (56, c.p 24 8 % 16 != 0, 5)]

/-- The references of XLAT_LOAD (R321): at most 1 MiB, every byte in the DRAM or Tarn of the partition's stacks; DEDUCED: a length of 0 names nothing
(R308). -/
def xloadRefs (a : Nat) (c : Cmd) (s : State) : Option (Nat × Nat) :=
  let x := c.p 0 8
  let n := c.p 8 8
  let inPart := fun (y : Nat) => match paLoc s y, apPart s a with | some l, some q => locInPart s q l | _, _ => false
  firstRef [(32, decide (2 ^ 48 ≤ x), 2), (40, n == 0 || decide (2 ^ 20 < n), 5),
    (32, !((span (x / 4096) ((x + n - 1) / 4096 + 1)).all fun g => inPart (max x (g * 4096))), 5)]

/-! ### Ends of a transfer (R307, R324) -/

/-- The command in progress ends with ERROR, or ABORTED for a target in reset. -/
def failCmd (a code addr done : Nat) (s : State) : State :=
  finish a (if code = fcResetAbort then stAborted else stError) (errorResult code addr done) s

/-- The command in progress ends with AUTH for a chunk whose tag fails: AUTHRUN (R307), and the bytes completed (R324; DESIGN CHOICE: in bytes 16 to 23,
where ERROR has them). -/
def authCmd (a done : Nat) (s : State) : State := finish a stAuth (mkResult [(0, 4, (getAp s a).authRun), (16, 8, done)]) s

/-- Bytes of a chunk, and its index. -/
def chunkLen (c : Cmd) : Nat := min 4096 (c.p (if c.opcode = 0x20 then 4 else 8) (if c.opcode = 0x20 then 4 else 8) - c.moved)
def chunkNo (c : Cmd) : Nat := c.moved / 4096

/-- The bytes of a transfer so far, and its end once all have moved. -/
def movedTo (a : Nat) (c : Cmd) (n : Nat) (result : List Byte) (fin : Cmd → State → State) (s : State) : State :=
  let total := c.moved + chunkLen c
  let whole := if c.opcode = 0x20 then c.p 4 4 else c.p 8 8
  let s1 := updCur a (fun k => { k with moved := c.moved + n }) s
  if whole ≤ total then finish a stOk result (fin c s1) else s1

/-- RESULT of DMA_WRITE, DMA_READ and FW_WRITE: the bytes moved. -/
def bytesResult (c : Cmd) : List Byte := mkResult [(0, 8, c.moved + chunkLen c)]

/-- What a chunk's packets have come to: `fin` once all have committed, the end of the command at a failure (R324); those that an owner holds back keep
it in progress (R81). -/
def jobStep (a : Nat) (c : Cmd) (fin : State → State) (r : State × OutJob) : State :=
  if !r.2.over then updCur a (fun k => { k with job := some r.2 }) r.1
  else
    let s := updCur a (fun k => { k with job := none }) r.1
    match r.2.first with
    | some (st, e) => failCmd a st.fault e (c.moved + r.2.done) s
    | none => fin s

/-- The end of a chunk of DMA_WRITE. -/
def writeEnd (a : Nat) (c : Cmd) (s : State) : State := movedTo a c (chunkLen c) (bytesResult c) (fun _ s => s) s

/-- A chunk of DMA_WRITE in the clear (R322, R324). -/
def writeChunk (a : Nat) (c : Cmd) (data : List Byte) (s : State) : State :=
  let v := c.p 0 8
  let x := natBits v 47 0 + c.moved
  let n := chunkLen c
  let step := fun (spm : Bool) (ps : List (Nat × Nat)) (s : State) => jobStep a c (writeEnd a c) (runJob .leadIo (newJob spm data (packetsOf ps)) s)
  if natBits v 50 48 = 3 then step true [(x, n)] s
  else
    let r := xlRange .leadIo (apPart s a) true true (cutPages x n) s
    match r.2 with
    | .bad code e => failCmd a code e c.moved r.1
    | .ok ps => step false ps r.1

/-- A chunk of DMA_READ (R323, R324): one that holds a word in error is not sent. -/
def readChunk (a : Nat) (ss : Session) (c : Cmd) (s : State) : State :=
  let v := c.p 0 8
  let sp := natBits v 50 48
  let x := natBits v 47 0 + c.moved
  let n := chunkLen c
  let out := fun (data : List Byte) (s : State) =>
    movedTo a c n (bytesResult c) (fun _ s => s) (postChunk ss a c.count (natBits v 47 0) sp (c.p 16 8) (some (c.p 24 8)) (chunkNo c) data s)
  if sp = 3 then
    let r := spmRead .leadIo x n s
    match r.2.1 with
    | some (st, e) => failCmd a st.fault e c.moved r.1
    | none => out r.2.2 r.1
  else
    let r := xlRange .leadIo (apPart s a) false true (cutPages x n) s
    match r.2 with
    | .bad code e => failCmd a code e c.moved r.1
    | .ok ps =>
      let y := farLoad .leadIo 7 ps r.1
      match y.2.1 with
      | some e => failCmd a fcBusError e c.moved y.1
      | none => out y.2.2 y.1

/-- The end of a chunk of XLAT_LOAD (R321): once the image is whole, P0 is extended with the address and the image (R428, R429). -/
def xloadEnd (a : Nat) (c : Cmd) (s : State) : State :=
  movedTo a c (chunkLen c) (mkResult []) (fun c s => match apPart s a with
    | some q => extendPart q false 3 c.opcode (cmdDetail c) (sha384 (leBytes 8 (c.p 0 8) ++ c.buf)) s
    | none => s) s

/-- A chunk of XLAT_LOAD (R321), kept for the measurement of the whole. -/
def xloadChunk (a : Nat) (c : Cmd) (data : List Byte) (s : State) : State :=
  let c1 := { c with buf := c.buf ++ data }
  jobStep a c1 (xloadEnd a c1) <|
    runJob .leadIo (newJob false data (packetsOf [(c.p 0 8 + c.moved, chunkLen c)])) (updCur a (fun k => { k with buf := c1.buf }) s)

/-- A chunk of FW_WRITE (R440): a sector of the slot erased and written. -/
def fwChunk (a : Nat) (c : Cmd) (data : List Byte) (s : State) : State :=
  movedTo a c (chunkLen c) (bytesResult c) (fun _ s => s)
    (writeSector (slotBase c.aux + c.p 0 4 + c.moved) (bytesAt data 0 (chunkLen c)) s)

/-- The device address, space, and host data of a chunk from the host: verified before any byte of it is written (R323). A failure of a broadcast's
reports no bytes, for none has left (R325). -/
def chunkIn (a : Nat) (ss : Session) (c : Cmd) (addr sp : Nat) (data tag : List Byte) (go : List Byte → State → State) (s : State) : State :=
  -- HADDR and TADDR: at 8 and 16 of FW_WRITE's parameters, at 16 and 24 of the others'
  let h := if c.opcode = 0x20 then 8 else 16
  let s1 := hostAnswered (chunkLen c) data tag (readHost (c.p (h + 8) 8 + 16 * chunkNo c) 16 (readHost (c.p h 8 + c.moved) (chunkLen c) s))
  match openChunk ss a c.count addr sp (chunkNo c) (bytesAt data 0 (chunkLen c)) tag with
  | none => authCmd a (if c.opcode = 0x52 then 0 else c.moved) s1
  | some clear => go clear s1

/-! ### BCAST_WRITE (R169, R325) -/

/-- The clusters, or the cores where the kind is 1, that a broadcast reaches. -/
def bcastTargets (s : State) (q kind die : Nat) : List Nat :=
  let dcs := if die = 0xFF then partDcs s q else dieDcs die
  if kind = 0 then dcs else dcs.flatMap fun dc => (List.range 1024).map (dc * 1024 + ·)

/-- The reply of a broadcast (R325). -/
def bcastReply (a : Nat) (b : BcastJob) (s : State) : State :=
  match b.first with
  | none => finish a stOk (mkResult [(16, 8, b.bytes)]) s
  | some (st, off, n) =>
    finish a (if st = .resetAbort then stAborted else stError)
      (mkResult [(0, 1, st.fault), (4, 4, b.failed), (8, 8, off), (16, 8, b.bytes), (24, 4, n)]) s

/-- A broadcast goes on, and is answered once every packet of it has been (R325). -/
def bcastStep (a : Nat) (c : Cmd) (b : BcastJob) (s : State) : State :=
  let r := runBcast (c.p 4 1) (bcastTargets s ((apPart s a).getD 0) (c.p 4 1) (c.p 5 1)) b s
  if r.2.wait.isEmpty && r.2.left.isEmpty then bcastReply a r.2 r.1 else updCur a (fun k => { k with bcast := some r.2 }) r.1

/-- A verified chunk of BCAST_WRITE (R325): no byte leaves before the whole of its data has been verified. -/
def bcastChunk (a : Nat) (c : Cmd) (data : List Byte) (s : State) : State :=
  let buf := c.buf ++ data
  let s1 := updCur a (fun k => { k with buf := buf, moved := buf.length }) s
  if c.p 8 8 ≤ buf.length then
    bcastStep a c { left := (cutLines (c.p 0 4) buf.length).map fun p => (p.1, bytesAt buf (p.1 - c.p 0 4) p.2) } s1
  else s1

/-! ### DMA_CHUNK (R323) -/

/-- The transfer in progress on an aperture goes on: with the packets or branches that have been answered, with the next chunk of a block for the host,
or with the next chunk of its own data; each opcode has its own. -/
def chunkRun (a : Nat) (c : Cmd) (data tag : List Byte) (s : State) : State :=
  match c.job, c.bcast, c.post with
  | some j, _, _ => jobStep a c (if c.opcode = 0x0053 then xloadEnd a c else writeEnd a c) (runJob .leadIo j s)
  | none, some b, _ => bcastStep a c b s
  | none, none, some p => postNext a c p s
  | none, none, none =>
    match apSession s a with
    | none => s
    | some ss =>
      match c.opcode with
      | 0x0050 => chunkIn a ss c (natBits (c.p 0 8) 47 0) (natBits (c.p 0 8) 50 48) data tag (writeChunk a c) s
      | 0x0051 => readChunk a ss c s
      | 0x0052 => chunkIn a ss c (c.p 0 4) (if c.p 4 1 = 0 then 4 else 3) data tag (bcastChunk a c) s
      | 0x0053 => chunkIn a ss c (c.p 0 8) 4 data tag (xloadChunk a c) s
      | 0x0020 => chunkIn a ss c (c.p 0 4) 0 data tag (fwChunk a c) s
      | _ => s

/-- The lead I/O die serves the transfer in progress on an aperture, in its turn (R323). -/
def dmaChunk (a : Nat) (data tag : List Byte) (s : State) : State :=
  match (getAp s a).cur with
  | some c => if chunkNext s a then chunkRun a c data tag (tookChunk a s) else s
  | none => s

/-- DMA_CHUNK (R323). -/
def execDmaChunk (ap : Nat) (data tag : List Byte) (s : State) : Host.Outcome State Fault Refusal := live s (dmaChunk ap data tag s)

/-! ### The start of a transfer -/

/-- The first page of a range that is a spring page, seen without changing anything (R217). -/
def springPage (s : State) (q : Option Nat) (a n : Nat) : Option Nat :=
  ((cutPages a n).map (·.1)).find? fun va =>
    match (xlNow .leadIo q va s).2 with
    | .ok t => t.spr
    | _ => false

/-- DMA_WRITE starts (R217, R322): the transfer carries the host's tags, so one that names a spring page is refused before any byte moves. -/
def dmaWriteRun (a : Nat) (c : Cmd) (s : State) : State :=
  let v := c.p 0 8
  let hit := if natBits v 50 48 = 4 then springPage s (apPart s a) (natBits v 47 0) (c.p 8 8) else none
  match hit with
  | some va => failCmd a fcPermission va 0 s
  | none => startCmd a 0 s

/-- DMA_WRITE (R322). -/
def execDmaWrite (ap : Nat) (s : State) : Host.Outcome State Fault Refusal :=
  live s (cmdRun ap 0x0050 (dmaRefs ap) (partIn ap [.ready, .running, .draining, .salvage]) (dmaWriteRun ap) s)

/-- DMA_READ (R322). -/
def execDmaRead (ap : Nat) (s : State) : Host.Outcome State Fault Refusal :=
  live s (cmdRun ap 0x0051 (dmaRefs ap) (partIn ap [.ready, .running, .draining, .salvage]) (fun _ s => startCmd ap 0 s) s)

/-- XLAT_LOAD (R321). -/
def execXlatLoad (ap : Nat) (s : State) : Host.Outcome State Fault Refusal :=
  live s (cmdRun ap 0x0053 (xloadRefs ap) (partIn ap [.config, .ready, .running, .draining]) (fun _ s => startCmd ap 0 s) s)

/-! ### BCAST_WRITE starts -/

/-- The references of BCAST_WRITE (R312, R325): its kind, its die, LEN from 16 B to 64 KiB, and an offset that the slice or window holds. -/
def bcastRefs (a : Nat) (c : Cmd) (s : State) : Option (Nat × Nat) :=
  let n := c.p 8 8
  let d := c.p 5 1
  firstRef [(36, decide (1 < c.p 4 1), 5), (37, d != 0xFF && !(decide (d < 6) && diePart s d == apPart s a), 5),
    (40, decide (n < 16) || decide (65536 < n), 5),
    (32, decide ((if c.p 4 1 = 0 then 48 * mib else 32768) < c.p 0 4 + n), 5)]

/-- BCAST_WRITE starts (R325): it takes the chunks of its data, ciphertext and tag, as long as its turn lasts (R323); the rest follow by DMA_CHUNK. -/
def bcastWriteRun (a : Nat) (chunks : List (List Byte × List Byte)) (s : State) : State :=
  forEach chunks (fun s x => dmaChunk a x.1 x.2 s) (startCmd a 0 s)

/-- BCAST_WRITE (R325). -/
def execBcastWrite (ap : Nat) (chunks : List (List Byte × List Byte)) (s : State) : Host.Outcome State Fault Refusal :=
  live s (cmdRun ap 0x0052 (bcastRefs ap) (partIn ap [.ready, .running, .draining]) (fun _ s => bcastWriteRun ap chunks s) s)

end Sys2Proof.Machine
end

