-- ==== Sys2Proof/Machine/LinkChains.lean ====
section
/-! DEFINITION. Link chains (R354 to R356, R420): descriptors, the messages they send, and their ends. -/

namespace Sys2Proof.Machine

/-! ### Ends -/

/-- A chain enters a state, and its record is written (R356). -/
def chainSt (k q : Nat) (f : Chain → Chain) (s : State) : State := chainRecord k q (updChain s k q f)

/-- A descriptor ends in error (R356): the record, and the LINK event; no signal is made. -/
def chainError (k q code : Nat) (s : State) : State :=
  let s1 := updPort s k fun p => { p with reqs := orphanReqs q p.reqs }
  let s2 := chainSt k q (fun c => { c with st := .error, code := code, cur := none }) s1
  linkEvent k 1 q code (getChain s2 k q).descAddr s2

/-! ### Descriptors (R355) -/

/-- The fields of a descriptor's 64 bytes. -/
def linkParse (b : List Byte) : ChainDesc :=
  let w := fun o => fieldAt b o 8
  { loc := natBits (w 0) 47 0, lspace := natBits (w 0) 50 48, kind := natBits (w 0) 55 52, rpart := natBits (w 0) 58 56
    notify := natBit (w 0) 59, nflag := natBits (w 0) 63 60, remote := natBits (w 8) 47 0, rspace := natBits (w 8) 50 48
    len := natBits (w 16) 31 0, bid := natBits (w 16) 47 32, wcore := natBits (w 24) 20 0, wflag := natBits (w 24) 24 21
    wcount := natBits (w 24) 32 25, score := natBits (w 32) 20 0, sflag := natBits (w 32) 24 21, sen := natBit (w 32) 25
    next := natBits (w 40) 47 0, last := natBit (w 40) 48
    ladv := signedBits (natBits (w 48) 31 0) 32, radv := signedBits (natBits (w 48) 63 32) 32
    rep := max 1 (natBits (w 56) 15 0) }

/-- Whether reserved bits of a descriptor are set (R355). -/
def linkStray (b : List Byte) : Bool :=
  let w := fun o => fieldAt b o 8
  natBit (w 0) 51 || natBits (w 8) 63 51 != 0 || natBits (w 16) 63 48 != 0 || natBits (w 24) 63 33 != 0 || natBits (w 32) 63 26 != 0
    || natBits (w 40) 63 49 != 0 || natBits (w 56) 63 16 != 0

/-- What a descriptor ends with before it starts: a field outside its range, or a flag of a core outside the partition. -/
def linkCheck (s : State) (q : Nat) (b : List Byte) : Option Nat :=
  let d := linkParse b
  let sp := fun x => x == 3 || x == 4
  let mine := fun c => lciOk c && lciPart s c == some q
  if linkStray b || decide (3 < d.kind) then some fcDescInvalid
  else if d.kind != 3 && (!sp d.lspace || !sp d.rspace || d.len % 16 != 0 || d.len == 0 || d.remote % 16 != 0 || (d.kind == 0 && d.notify && d.rspace != 3))
  then some fcDescInvalid
  else if (d.wcount != 0 && !mine d.wcore) || (d.sen && !mine d.score) then some fcAddress
  else none

/-- An iteration begins (R355): it waits for its flag, except in a salvage chain (R420). -/
def chainBegin (k q : Nat) (d : ChainDesc) (i : Nat) (s : State) : State :=
  let wait := d.wcount != 0 && !(getChain s k q).salvage
  chainSt k q (fun c => { c with
    cur := some d, iter := i, sent := 0, barSent := false, st := if wait then .waiting else .running }) s

/-- A descriptor read and begun (R354, R355). -/
def chainLoad (k q addr : Nat) (s : State) : State :=
  let s0 := updChain s k q fun c => { c with descAddr := addr, st := .running, cur := none }
  let x := linkXl k q false (cutPages addr 64) s0
  match x.2 with
  | .bad code _ => chainError k q code x.1
  | .ok ps =>
    let r := farLoad (.link k) 8 ps x.1
    match r.2.1 with
    | some _ => chainError k q fcBusError r.1
    | none =>
      match linkCheck r.1 q r.2.2 with
      | some c => chainError k q c r.1
      | none => chainBegin k q (linkParse r.2.2) 0 r.1

/-- A chain starts from its head (R354), or its salvage entry (R420); with no valid head, none runs. -/
def chainStart (k q : Nat) (salvage : Bool) (s : State) : State :=
  let a := linkPage + (if salvage then 0x100 else 0) + 8 * k
  let s0 := updChain s k q fun _ => { salvage := salvage }
  let x := linkXl k q false [(a, 8)] s0
  match x.2 with
  | .bad _ _ => x.1
  | .ok ps =>
    let r := farLoad (.link k) 8 ps x.1
    let h := leNat r.2.2
    if r.2.1.isSome || !natBit h 63 then r.1 else chainLoad k q (natBits h 47 0) r.1

/-! ### Messages -/

/-- The smallest request tag that is free (R355). -/
def freeTag (p : Port) : Option Nat := (List.range 1024).find? fun t => !(p.reqs.any fun r => r.mtag == t)

/-- The bytes of the next message of an iteration: at most 512, and none across 4 KiB of REMOTE (R355). -/
def nextLen (remote left : Nat) : Nat := min (min 512 left) (4096 - remote % 4096)

/-- Local bytes read for a PUT or RPUT: the bytes, or the code of the failure (R354, R356). -/
def localRead (k q sp a n : Nat) (s : State) : State × (Nat ⊕ List Byte) :=
  if sp = 3 then
    if !spmRangeOk s (some q) a n then (s, .inl fcAddress) else
    let r := spmRead (.link k) a n s
    match r.2.1 with
    | some (st, _) => (r.1, .inl st.fault)
    | none => (r.1, .inr r.2.2)
  else
    let x := linkXl k q false (cutPages a n) s
    match x.2 with
    | .bad code _ => (x.1, .inl code)
    | .ok ps =>
      let r := farLoad (.link k) 8 ps x.1
      match r.2.1 with
      | some _ => (r.1, .inl fcBusError)
      | none => (r.1, .inr r.2.2)

/-- The packets that write local bytes for a GET, or the code of a failure before any (R354, R356). -/
def localJob (k q sp a : Nat) (data : List Byte) (s : State) : State × (Nat ⊕ OutJob) :=
  if sp = 3 then (s, if spmRangeOk s (some q) a data.length then .inr (newJob true data (packetsOf [(a, data.length)])) else .inl fcAddress)
  else
    let x := linkXl k q true (cutPages a data.length) s
    match x.2 with
    | .bad code _ => (x.1, .inl code)
    | .ok ps => (x.1, .inr (newJob false data (packetsOf ps)))

/-- The local and remote addresses of an iteration's bytes from an offset: none where one leaves 48 bits or REMOTE its alignment. -/
def iterAddrs (d : ChainDesc) (i off : Nat) : Option (Nat × Nat) :=
  let l := (d.loc : Int) + i * d.ladv + off
  let r := (d.remote : Int) + i * d.radv + off
  if decide (0 ≤ l) && decide (0 ≤ r) && decide (l < (2 ^ 48 : Nat)) && decide (r < (2 ^ 48 : Nat)) && r % 16 == 0 then
    some (l.toNat, r.toNat) else none

/-- One message of a chain sent (R355): the state, and whether one was. -/
def chainSend (k q : Nat) (s : State) : State × Bool :=
  let p := getPort s k
  let c := getChain s k q
  match c.st, c.cur, freeTag p with
  | .running, some d, some tag =>
    if d.kind = 3 then
      if c.barSent then (s, false) else
      (sendMsg k { type := mtBarrier, dpart := d.rpart, spart := q, addr := d.bid } [] (updChain s k q fun c => { c with barSent := true }), true)
    else if d.len ≤ c.sent then (s, false)
    else
      match iterAddrs d c.iter c.sent with
      | none => (chainError k q fcAddress s, false)
      | some (la, ra) =>
        let n := nextLen ra (d.len - c.sent)
        if 2 ^ 48 < la + n then (chainError k q fcAddress s, false) else
        let req : LinkReq := ⟨tag, q, d.kind == 1, d.lspace, la, n⟩
        let go := fun (h : MsgHdr) (data : List Byte) (s : State) =>
          (sendMsg k { h with dpart := d.rpart, spart := q, mtag := tag, dspace := d.rspace, addr := ra } data
            (updPort s k fun p => { p with
              reqs := p.reqs ++ [req], chains := smapUpd {} p.chains q fun c => { c with sent := c.sent + n } }), true)
        if d.kind = 1 then go { type := mtGet, glen := n / 16 } [] s
        else
          let r := localRead k q d.lspace la n s
          match r.2 with
          | .inl code => (chainError k q code r.1, false)
          | .inr data =>
            let lastPut := d.kind == 0 && d.notify && decide (d.len ≤ c.sent + n)
            go { type := if d.kind = 0 then mtPut else mtRput, plen := n / 16, notify := lastPut, nflag := if lastPut then d.nflag else 0 } data r.1
  | _, _, _ => (s, false)

/-- The partition whose chain sends next: round-robin after the one that sent last (R354). -/
def nextPart (s : State) (k : Nat) : List Nat := (List.range 6).map fun i => ((getPort s k).lastPart + 1 + i) % 6

/-- One message of the first chain in turn that has one to send. -/
def sendFirst (k : Nat) : List Nat → State → State × Bool
  | [], s => (s, false)
  | q :: qs, s =>
    let r := chainSend k q s
    if r.2 then (updPort r.1 k fun p => { p with lastPart := q }, true) else sendFirst k qs r.1

/-- Messages sent while chains have any and tags are free (R354, R355). -/
def sendChains (k : Nat) : Nat → State → State
  | 0, s => s
  | n + 1, s =>
    let r := sendFirst k (nextPart s k) s
    if r.2 then sendChains k n r.1 else r.1

/-- The chains of an ACTIVE port send what they can. -/
def pumpChains (k : Nat) (s : State) : State := if (getPort s k).st == .active then sendChains k 1030 s else s

/-! ### Waits and iterations -/

/-- LINK_CHAIN_FLAG_WAIT (R355): the flag has reached WCOUNT, which is taken in one step, over the fabric (R152). -/
def chainTake (k q : Nat) (s : State) : State :=
  let c := getChain s k q
  match c.st, c.cur with
  | .waiting, some d =>
    let v := smapGet 0 (getCore s d.wcore).flags d.wflag
    if (getPort s k).st == .active && decide (d.wcount ≤ v.toNat) then
      let r := overFabric .control (.link k) (.core d.wcore) .answer 0 0 (fun s =>
        (updCore s d.wcore fun x => { x with flags := smapSet 0 x.flags d.wflag (v - BitVec.ofNat 16 d.wcount) }, .commit, 0)) s
      pumpChains k (if r.2.1 = .commit then chainSt k q (fun c => { c with st := .running }) r.1 else chainError k q fcBusError r.1)
    else s
  | _, _ => s

/-- LINK_CHAIN_FLAG_WAIT (R355). -/
def execLinkChainFlagWait (port q : Nat) (s : State) : Host.Outcome State Fault Refusal := live s (chainTake port q s)

/-- Whether the messages of a running iteration have all been sent and answered, and its BARRIER matched. -/
def iterDone (s : State) (k q : Nat) (d : ChainDesc) : Bool :=
  let p := getPort s k
  let c := getChain s k q
  !(p.reqs.any fun r => r.part == q) &&
    (if d.kind = 3 then c.barSent && p.barriers.contains (d.bid, q) else decide (d.len ≤ c.sent))

/-- The signal of an iteration (R355, R420), over the fabric (R152): a core in reset takes none. Answers whether it was not lost on the way. -/
def chainSignal (k q : Nat) (d : ChainDesc) (s : State) : State × Bool :=
  if d.sen && !(getChain s k q).salvage then
    let x := crossNow .control (.link k) (.core d.score) 0 s
    (if x.2 && coreLive x.1 d.score then incFlag d.score d.sflag 0 x.1 else x.1, x.2)
  else (s, true)

/-- LINK_CHAIN_ITERATION_COMPLETE (R355): the iteration signals; then the next one, the next descriptor, or the end. DESIGN CHOICE: a signal that the
fabric loses ends the descriptor with BUS_ERROR, the answer to its packet (R152). -/
def chainIterate (k q : Nat) (s : State) : State :=
  let c := getChain s k q
  match c.st, c.cur with
  | .running, some d =>
    if (getPort s k).st == .active && iterDone s k q d then
      let s1 := updPort s k fun p => { p with barriers := if d.kind = 3 then p.barriers.erase (d.bid, q) else p.barriers }
      let s2 := chainSignal k q d s1
      pumpChains k <|
        if !s2.2 then chainError k q fcBusError s2.1
        else if c.iter + 1 < d.rep then chainBegin k q d (c.iter + 1) s2.1
        else if d.last then chainSt k q (fun c => { c with st := .ended, cur := none }) s2.1
        else chainLoad k q d.next s2.1
    else s
  | _, _ => s

/-- LINK_CHAIN_ITERATION_COMPLETE (R355). -/
def execLinkChainIterationComplete (port q : Nat) (s : State) : Host.Outcome State Fault Refusal := live s (chainIterate port q s)

/-- The chains of a partition started on every ACTIVE port (R354, R420). -/
def startLinks (q : Nat) (salvage : Bool) (s : State) : State :=
  forEach (List.range 6) (fun s k => if (getPort s k).st == .active then pumpChains k (chainStart k q salvage s) else s) s

/-! ### PART_RUN (R311, R398) -/

/-- The apertures on which an FW_WRITE is in progress. -/
def fwWriting (s : State) : Bool := !(apsWaiting s fun _ c => c.opcode == 0x20).isEmpty

/-- PART_RUN (R311): the rotation counts start afresh (R398), and the link chains start (R354). -/
def partRunStart (a : Nat) (s : State) : State :=
  match apPart s a with
  | none => s
  | some q =>
    if fwWriting s then finish a stState (stateResult s (some q) 3) s
    else
      let s1 := forEach (partClus s q) (fun s dc => forEach (List.range 4) (fun s n => updSeq s dc n fun x => { x with rotIdx := 0 }) s)
        (updPart s q fun p => { p with rots := [] })
      startLinks q false (finish a stOk (mkResult []) (setPart q .running caCommand s1))

/-- PART_RUN (R311). -/
def execPartRun (ap : Nat) (s : State) : Host.Outcome State Fault Refusal :=
  live s (cmdRun ap 0x0044 noRefs (partIn ap [.ready]) (fun _ s => partRunStart ap s) s)

end Sys2Proof.Machine
end

