-- ==== Sys2Proof/Machine/LinkLanes.lean ====
section
/-! DEFINITION. The lanes of a Rorek Link port (R328, R331 to R336): their codewords, markers, readiness tests and error counts. -/

namespace Sys2Proof.Machine

/-! ### Lanes and width (R334, R335) -/

/-- The lanes of a mask, lowest first. -/
def lanesOf (m : Nat) : List Nat := (List.range 52).filter (natBit m)

/-- The mask of a list of distinct lanes. -/
def laneMask (ls : List Nat) : Nat := ls.foldl (fun t l => t + 2 ^ l) 0

/-- The mask of the `w` lowest-numbered lanes of a mask (R335). -/
def lowLanes (w m : Nat) : Nat := laneMask ((lanesOf m).take w)

/-- The width for two directions' ready lanes (R335), and its code; none below 32. -/
def widthFor (tx rx : Nat) : Option (Nat × Nat) :=
  let n := min (lanesOf tx).length (lanesOf rx).length
  if 48 ≤ n then some (48, 0) else if 40 ≤ n then some (40, 1) else if 32 ≤ n then some (32, 2) else none

/-- The lane maps and the width fixed (R335). -/
def setLanes (w code tx rx : Nat) (p : Port) : Port :=
  { p with width := code, txmap := lowLanes w tx, rxmap := lowLanes w rx, txReady := tx % 2 ^ 52, rxReady := rx % 2 ^ 52 }

/-- Whether a lane's readiness test meets the three conditions of R334: 10¹¹ raw bits of 5,760-bit codewords, fewer than 2 in 10⁵ of them
corrected, and no codeword uncorrectable and no bit off the PRBS31 sequence. -/
def laneReady (t : LaneTest) : Bool :=
  decide (10 ^ 11 ≤ 5760 * t.codewords) && decide (50000 * t.bits < 5760 * t.codewords) && t.uncorr == 0 && t.mismatches == 0

/-- The first result of a lane among the tests of one direction. -/
def testOf (ts : List LaneTest) (l : Nat) : Option LaneTest := ts.find? fun t => t.lane == l

/-- The lanes that the tests find ready (R334). -/
def readyMask (ts : List LaneTest) : Nat := laneMask ((List.range 52).filter fun l => (testOf ts l).any laneReady)

/-- The lanes that stay ready through a retrain (R336, R340): those ready before it that no test of it has found wanting. -/
def stillReady (m : Nat) (ts : List LaneTest) : Nat := laneMask ((lanesOf m).filter fun l => (testOf ts l).all laneReady)

/-- Whether every lane of a map has passed its test (R340). -/
def mapTested (m : Nat) (ts : List LaneTest) : Bool := (lanesOf m).all fun l => (testOf ts l).any laneReady

/-- The errors of a receive direction's tests counted (R358). -/
def countTests (ts : List LaneTest) (p : Port) : Port :=
  ts.foldl (fun p t => if t.lane < 52 then
      { p with uncorr := inc64 p.uncorr t.uncorr, corr := smapUpd 0 p.corr t.lane (inc64 · t.symbols) }
    else p) p

/-! ### Lane markers (R332) -/

/-- A lane marker's message. -/
def laneMarker (lane plane width block : Nat) (retrain : Bool) : Nat :=
  lane + 2 ^ 6 * plane + 2 ^ 12 * width + 2 ^ 14 * (block % 2 ^ 32) + 2 ^ 46 * bit retrain

/-- The words of one block over `w` lanes: 288 data codewords of 85 words each (R332, R333). -/
def blockWords (w : Nat) : Nat := 288 * 85 * w

/-- The words sent since the lanes started (R333): 32 of each flit. -/
def txWords (p : Port) : Nat := 32 * (p.txOut.length - p.txFrom)

/-- The marker that logical transmit lane `i` sends at the head of its current block. -/
def txMarker (p : Port) (i : Nat) : Nat :=
  let lanes := lanesOf p.txmap
  laneMarker i (lanes.getD i 0) p.width (txWords p / blockWords lanes.length) p.retrainReq

/-- The 544 message symbols of a codeword, the low bits first. DESIGN CHOICE: symbol j carries bits [10j+9:10j] of the message. -/
def msgSymbols (m : Nat) : List Nat := (List.range 544).map fun j => m / 2 ^ (10 * j) % 1024

/-- The codeword of the marker of logical transmit lane `i` (R331, R332). -/
def markerCodeword (p : Port) (i : Nat) : List Nat := laneCodeword (msgSymbols (txMarker p i))

/-- Data codeword `c` of logical transmit lane `i` since the lanes started (R331, R333): 85 words of the stream, those numbered i modulo W. -/
def dataCodeword (p : Port) (i c : Nat) : List Nat :=
  let w := (lanesOf p.txmap).length
  let word := fun (n : Nat) => leNat (bytesAt ((p.txOut.drop (p.txFrom + n / 32)).headD []) (8 * (n % 32)) 8)
  laneCodeword (msgSymbols ((List.range 85).foldl (fun m j => m + 2 ^ (64 * j) * word (i + w * (85 * c + j))) 0))

/-- Whether a message on physical receive lane `l` is the marker that lane must carry: its logical and physical number, the width, and zeros in
the reserved bits. -/
def markerOk (p : Port) (l m : Nat) : Bool :=
  natBit p.rxmap l && m % 2 ^ 14 == ((lanesOf p.rxmap).filter (· < l)).length + 2 ^ 6 * l + 2 ^ 12 * p.width && decide (m < 2 ^ 47)

/-- Whether the markers received align the lanes (R332): each lane of the receive map shows its own, all with one block count. -/
def aligned (p : Port) (marks : List (Nat × Nat)) : Bool :=
  let block := natBits ((marks.map (·.2)).headD 0) 45 14
  (lanesOf p.rxmap).all fun l => marks.any fun x => x.1 == l && markerOk p l x.2 && natBits x.2 45 14 == block

/-- The lanes start (R332): both flit streams begin at word 0 of block 0, and the error windows at nothing. DESIGN CHOICE: the block count
starts at 0 each time. -/
def startLanes (p : Port) : Port :=
  { p with txFrom := p.txOut.length, rxWords := 0, rxResid := [], winCorr := [], winUncorr := [], retrainReq := false }

/-! ### Codewords received (R331, R333) -/

/-- The sum of the symbol differences of each place below `n`, where it is not 0. -/
def netErrs (n : Nat) (es : List (Nat × Nat)) : List (Nat × Nat) :=
  (List.range n).filterMap fun p =>
    let d := (es.filter (·.1 == p)).foldl (fun a e => a ^^^ e.2 % 1024) 0
    if d = 0 then none else some (p, d)

/-- Corrected symbols and uncorrectable codewords of a lane counted (R336, R358). -/
def countLane (l corr bad : Nat) (p : Port) : Port :=
  { p with
    corr := smapUpd 0 p.corr l (inc64 · corr), winCorr := smapUpd 0 p.winCorr l (· + corr)
    uncorr := inc64 p.uncorr bad, winUncorr := smapUpd 0 p.winUncorr l (· + bad) }

/-- A codeword of a physical lane decoded (R331): what the channel did to its symbols, the corrections counted, and what stays wrong in its
message. -/
def decodeLane (l : Nat) (noise : List (Nat × Nat)) (p : Port) : Port :=
  let errs := netErrs 576 noise
  if errs.isEmpty then { p with rxResid := smapSet [] p.rxResid l [] } else
  match laneLocate errs with
  | none => { countLane l 0 1 p with rxResid := smapSet [] p.rxResid l (netErrs 544 errs) }
  | some fix => { countLane l fix.length 0 p with rxResid := smapSet [] p.rxResid l (netErrs 544 (errs ++ fix)) }

/-- The physical lane of word `n` of the receive stream, and its row on that lane (R333). -/
def rxPlace (p : Port) (n : Nat) : Nat × Nat :=
  let lanes := lanesOf p.rxmap
  (lanes.getD (n % lanes.length) 0, n / lanes.length)

/-- The codewords that begin within the next flit decoded, each with its lane's channel errors. -/
def beginCodewords (noise : List (Nat × List (Nat × Nat))) (p : Port) : Port :=
  ((List.range 32).map fun u => rxPlace p (p.rxWords + u)).foldl (fun p x =>
    if x.2 % 85 = 0 then decodeLane x.1 ((noise.filter (·.1 == x.1)).flatMap (·.2)) p else p) p

/-- A flit as the lanes deliver it: each word with the errors left in its codeword. -/
def laneFlit (p : Port) (flit : List Byte) : List Byte :=
  if p.rxResid.isEmpty then flit else
  (List.range 32).flatMap fun u =>
    let x := rxPlace p (p.rxWords + u)
    let mask := (smapGet [] p.rxResid x.1).foldl (fun m e => m + 2 ^ (10 * e.1) * e.2) 0
    leBytes 8 (leNat (bytesAt flit (8 * u) 8) ^^^ mask / 2 ^ (64 * (x.2 % 85)) % 2 ^ 64)

/-- The next flit of the receive stream through the lanes: the port after it, and the flit's bytes. -/
def rxLanes (noise : List (Nat × List (Nat × Nat))) (flit : List Byte) (p : Port) : Port × List Byte :=
  let p1 := beginCodewords noise p
  ({ p1 with rxWords := p.rxWords + 32 }, laneFlit p1 (bytesAt flit 0 256))

/-! ### Error windows (R336) -/

/-- The window's counts, with those of its codewords that carry no flit of a command: a spare's PRBS31 and the markers. -/
def windowCounts (corr uncorr : List (Nat × Nat)) (p : Port) : Port :=
  uncorr.foldl (fun p e => if e.1 < 52 then countLane e.1 0 e.2 p else p)
    (corr.foldl (fun p e => if e.1 < 52 then countLane e.1 e.2 0 p else p) p)

/-- The lanes that the window's counts fail (R336). -/
def failedLanes (p : Port) : List Nat :=
  (List.range 52).filter fun l => decide (8500000 < smapGet 0 p.winCorr l) || decide (2 ≤ smapGet 0 p.winUncorr l)

end Sys2Proof.Machine
end

