-- ==== Sys2Proof/Machine/FabricCmds.lean ====
section
/-! DEFINITION. Packets at their hops, at the switches with adders, at a core port and back at their source (R141, R145, R146, R152, R159,
R163, R170 to R173, R277). -/

namespace Sys2Proof.Machine

/-! ### At the owner's core port -/

/-- A write or reduction packet at its owner's check point (R138, R142, R145, R149, R173, R177): admitted, or dropped and answered. -/
def checkPkt (c : Nat) (p : Pkt) (red : Option Nat) (s : State) : State :=
  let off := p.addr % 32768
  if !coreLive s c || p.stale then dropPkt p.id (answerPkt p .resetAbort 0 s)
  else if 0x7000 ≤ off then dropPkt p.id (answerPkt p .address p.addr s)
  else
    match checkPoint s c off p.data.length (max p.scope (writerScope p.src c)) false with
    | .windows ws => admitPkt c p ws red s
    | .free => admitPkt c p [] red s
    | .closed w => dropPkt p.id (answerPkt p .windowClosed 0 (countDrop c w s))
    | .noWindow => dropPkt p.id (answerPkt p .noWindow 0 s)
    | .address => dropPkt p.id (answerPkt p .address p.addr s)

/-- A packet of a kind that stands at a core port, with its core. -/
def atCore (s : State) (pid : Nat) (kind : PktKind) : Option (Nat × Pkt) :=
  match findPkt s pid with
  | none => none
  | some p =>
    match p.dst with
    | .core c => if p.kind = kind ∧ arrived s p then some (c, p) else none
    | _ => none

/-- WRITE_PACKET_ARRIVE (R145). -/
def execWritePacketArrive (pid : Nat) (s : State) : Host.Outcome State Fault Refusal :=
  live s (match atCore s pid .write with
    | some (c, p) => checkPkt c p none (passOut p s)
    | none => s)

/-- REDUCTION_PACKET_ARRIVE (R173): the check is that of a write, with the widest scope among its contributors. -/
def execReductionPacketArrive (pid : Nat) (s : State) : Host.Outcome State Fault Refusal :=
  live s (match atCore s pid .reduction with
    | some (c, p) => checkPkt c p (some p.fmt) (passOut p s)
    | none => s)

/-- Whether an admitted packet may commit now: every packet admitted before it to one of its windows, or from its source, has
committed, and the QNT that holds it has completed (R81, R146, R174). -/
def mayCommit (s : State) (k : Core) (h : HeldPkt) : Bool :=
  let before := k.held.takeWhile fun x => x.pid != h.pid
  let src := fun (i : Nat) => (findPkt s i).map fun p => (p.src, p.vc)
  (before.all fun x => !(x.wins.any h.wins.contains) && src x.pid != src h.pid) &&
  (match h.heldBy with
    | some q => !(k.ops.any fun p => p.id == q)
    | none => true)

/-- An admitted packet's line is written and its answer sent (R146, R173); a word that refuses the write answers BUS_ERROR (R268). -/
def commitPkt (c pid : Nat) (s : State) : State :=
  let k := getCore s c
  match k.held.find? fun h => h.pid == pid, findPkt s pid with
  | some h, some p =>
    if mayCommit s k h && coreLive s c then
      let r := commitHeld c h s
      let s1 := updCore r.1 c fun k => { k with held := k.held.filter fun x => x.pid != pid }
      dropPkt pid (match r.2 with
        | none => answerPkt p .commit 0 s1
        | some e => answerPkt p .busError e s1)
    else s
  | _, _ => s

/-- PACKET_COMMIT (R146). -/
def execPacketCommit (lci pid : Nat) (s : State) : Host.Outcome State Fault Refusal := live s (commitPkt lci pid s)

/-- A remote read at a core port (R141, R149, R177, R269): the contents of the line at one instant. -/
def remoteRead (c : Nat) (p : Pkt) (s : State) : State :=
  let off := p.addr % 32768
  if !coreLive s c || p.stale then dropPkt p.id (respondPkt p .resetAbort 0 [] s)
  else
    let r := spmScan c 6 (if off < 0x7000 then [(off, p.len)] else []) (countAct (lciDc c) akSpm 1 s)
    match r.2 with
    | some e => dropPkt p.id (respondPkt p .busError e [] r.1)
    | none => dropPkt p.id (respondPkt p .commit 0 (windowBytes r.1 c off p.len) r.1)

/-- REMOTE_READ_ARRIVE (R141), after the cells that have failed in the words it reads (R139, R264). -/
def execRemoteReadArrive (pid : Nat) (upset : List (Nat × Nat × Option Bool)) (s : State) : Host.Outcome State Fault Refusal :=
  live s (match atCore s pid .readReq with
    | some (c, p) => remoteRead c p (forEach (upset.filter fun u => inWords (p.addr % 32768) p.len u.1)
        (fun s u => spmStrike c u.1 u.2.1 u.2.2 s) (passOut p s))
    | none => s)

/-- READ_RESPONSE_ARRIVE (R163): the data are written, and the port may send a further request (R162). -/
def readResponse (pid : Nat) (s : State) : State :=
  match atCore s pid .readResp with
  | some (c, p) => sendAll c (settleRead c p.req p.status p.errAddr p.data (dropPkt pid (passOut p s)))
  | none => s

/-- READ_RESPONSE_ARRIVE (R163). -/
def execReadResponseArrive (pid : Nat) (s : State) : Host.Outcome State Fault Refusal := live s (readResponse pid s)

/-! ### In-network reduction (R170 to R172) -/

/-- The entries of a switch's answer table (R172). -/
def tableRoom : SwitchName → Nat
  | .leaf _ => 1024
  | _ => 4096

/-- Whether a switch may combine two packets that wait in it (R170). -/
def combinable (sw : SwitchName) (p q : Pkt) : Bool :=
  p.id != q.id && p.kind == .reduction && q.kind == .reduction && !p.taken && !q.taken &&
    switchAt p == some sw && switchAt q == some sw &&
    p.dst == q.dst && p.addr == q.addr && p.tag == q.tag && decide (0 < p.tag) && p.fmt == q.fmt && p.stale == q.stale &&
    p.data.map (·.isSome) == q.data.map (·.isSome)

/-- The counters of the pair additions and of the uncombined packets of a switch (R178, R473). -/
def countComb (sw : SwitchName) (full : Bool) (s : State) : State :=
  let bump := fun (m : SMap W64) (i : Nat) => smapUpd 0 m i (· + 1)
  match sw with
  | .leaf dc => updClu s dc fun k =>
    if full then { k with fabNocomb := k.fabNocomb + 1 } else { k with fabComb := k.fabComb + 1 }
  | .dieSpine d p => updNet s fun t =>
    if full then { t with spineNocomb := bump t.spineNocomb (d * 16 + p) } else { t with spineComb := bump t.spineComb (d * 16 + p) }
  | .pkgSpine p => updNet s fun t =>
    if full then { t with spineNocomb := bump t.spineNocomb (96 + p) } else { t with spineComb := bump t.spineComb (96 + p) }

/-- The widest scope that a reduction packet carries (R142). -/
def pktScope (p : Pkt) : Nat :=
  match p.dst with
  | .core c => max p.scope (writerScope p.src c)
  | _ => p.scope

/-- Two packets become one, which carries their sum in the place of the earlier (R170, R172). -/
def combineAt (sw : SwitchName) (p q : Pkt) (s : State) : State :=
  let id := s.net.nextId
  let e : Combined := { sw := sw, pid := id, a := p.id, b := q.id, srcA := p.src, srcB := q.src }
  let one : Pkt := { p with id := id, data := redSum p.fmt p.data q.data, scope := max (pktScope p) (pktScope q) }
  countComb sw false <| updNet s fun t => { t with
    nextId := id + 1
    table := t.table ++ [e]
    pkts := (t.pkts.filter fun x => x.id != q.id).map fun x => if x.id = p.id then one else x }

/-- REDUCTION_COMBINE (R170): the one of the lower stamp is the earlier of the two in the queue. DESIGN CHOICE: with the table full, CLU_FAB_NOCOMB
counts one packet for each pair tried (R172). -/
def combine (sw : SwitchName) (a b : Nat) (s : State) : State :=
  match s.net.pkts.filter fun x => x.id == a || x.id == b with
  | [x, y] =>
    let p := if x.stamp ≤ y.stamp then x else y
    let q := if x.stamp ≤ y.stamp then y else x
    if combinable sw p q then
      if (s.net.table.filter fun e => e.sw == sw).length < tableRoom sw then combineAt sw p q s
      else countComb sw true s
    else s
  | _ => s

/-- REDUCTION_COMBINE (R170). -/
def execReductionCombine (sw : SwitchName) (a b : Nat) (s : State) : Host.Outcome State Fault Refusal := live s (combine sw a b s)

/-- The hops that an answer copied at a switch has still to pass towards a source (R172). DESIGN CHOICE: the answer to a combined packet returns
through the plane that R158 gives its own ends, and the answer table of a switch of that level and die holds the entry, in whichever plane. -/
def hopsBeyond (sw : SwitchName) (dst src : Endpoint) : List Hop :=
  let path := pathOf 0 dst src 0
  let lvl : SwitchName → Nat := fun x =>
    match x with
    | .leaf dc => 8 * dc + 1
    | .dieSpine d _ => 8 * d + 2
    | .pkgSpine _ => 3
  (hopsOf 0 dst src 0).drop ((edgeHop 0 dst).length + path.findIdx fun x => lvl x == lvl sw)

/-- One copy of an answer towards a contributor. -/
def copyAnswer (p : Pkt) (sw : SwitchName) (src : Endpoint) (req : Nat) (s : State) : State :=
  updNet s fun t => { t with
    nextId := t.nextId + 1
    pkts := t.pkts ++ [{ p with id := t.nextId, stamp := t.nextId, dst := src, req := req, hops := hopsBeyond sw p.src src, retries := 0 }] }

/-- The answer to a combined packet leaves its switch as one copy for each of the two, and the entry is freed (R172). -/
def copyBack (p : Pkt) (e : Combined) (s : State) : State :=
  copyAnswer p e.sw e.srcB e.b <| copyAnswer p e.sw e.srcA e.a <|
    updNet (dropPkt p.id s) fun t => { t with table := t.table.filter fun x => x.pid != e.pid }

/-- The entry of an answer table that an answer has reached. -/
def tableEntry (s : State) (p : Pkt) : Option Combined :=
  s.net.table.find? fun e => e.pid == p.req && decide (p.hops.length ≤ (hopsBeyond e.sw p.src e.srcA).length)

/-! ### Hops (R152, R159, R277, R406) -/

/-- The soft-repair entry of a hop (R275, R276). DESIGN CHOICE: the links to column memory ports and to I/O dies, for which R275 has no number, get
none. -/
def repairHop (h : Hop) (s : State) : State :=
  match h with
  | .leaf dc p => repairAdd (repairWord rkHop (dcDie dc) 0 (dcPhys s dc) p 0) s
  | .spine d p => repairAdd (repairWord rkHop d 0 0 (16 + p) 0) s
  | _ => s

/-- A packet discarded inside the fabric: its requester is told at once (R152, R159). -/
def failHere (p : Pkt) (st : FabStatus) (errAddr : Nat) (s : State) : State :=
  let clear := fun (q : Pkt) => { q with hops := ([] : List Hop), retries := 0 }
  if p.kind = .answer ∨ p.kind = .readResp then
    updNet s fun t => { t with
      pkts := mapIf (fun q => q.id == p.id) (fun q => { clear q with status := st, errAddr := errAddr, data := [] }) t.pkts }
  else
    let n := s.net.nextId
    updNet (failPkt p st errAddr (dropPkt p.id s)) fun t => { t with pkts := mapIf (fun q => q.id == n) clear t.pkts }

/-- Whether the source partition of a packet may not reach its destination (R159). -/
def crossesOut (s : State) (p : Pkt) : Bool :=
  match epDc p.dst with
  | some dc => p.kind != .answer && p.kind != .readResp && dcPart s dc != p.part
  | none => false

/-- A packet over its next hop (R152), when its turn has come (R161): a CRC error is retried; the fourth in a row is a hard fault, which stays in
force (R277); a spine stage turns away what R159 and R406 say. -/
def hopReceive (pid : Nat) (ok : Bool) (s : State) : State :=
  match findPkt s pid with
  | none => s
  | some p =>
    match p.hops with
    | [] => s
    | h :: rest =>
      if !served s p then s
      else if s.net.hard.contains h || !ok then
        let s1 := if p.retries < 3 then countRetry h s else s
        if 3 ≤ p.retries then
          let s2 := updNet (passOut p s1) fun t => { t with hard := if t.hard.contains h then t.hard else t.hard ++ [h] }
          failHere p .busError p.addr (repairHop h s2)
        else updNet s1 fun t => { t with pkts := mapIf (fun q => q.id == pid) (fun q => { q with retries := q.retries + 1 }) t.pkts }
      else
        let p' := { p with hops := rest, retries := 0, stamp := s.net.nextId }
        let atSpine := ((switchAt p').bind spineNo).isSome
        let s1 := countSpine p.data.length (switchAt p') <| updNet (passOut p s) fun t => { t with
          nextId := t.nextId + 1
          pkts := t.pkts.map fun q => if q.id = pid then p' else q }
        if atSpine && crossesOut s1 p' then failHere p' .address p.addr s1
        else if atSpine && regionDead s1 p.dst then failHere p' .busError p.addr s1
        else s1

/-- A packet that its sender's own command delivers, at a hop of its way (R152): the fourth CRC error in a row is a hard fault (R277). -/
def outsideHop (h : Hop) (ok : Bool) (s : State) : State :=
  if s.net.hard.contains h then s else
  let n := ((s.net.tries.find? fun e => e.1 == h).map (·.2)).getD 0
  let put := fun (m : Nat) (s : State) => updNet s fun t => { t with
    tries := (t.tries.filter fun e => e.1 != h) ++ (if m = 0 then [] else [(h, m)]) }
  if ok then put 0 s
  else if n < 3 then countRetry h (put (n + 1) s)
  else repairHop h (updNet (put 0 s) fun t => { t with hard := t.hard ++ [h] })

/-- FABRIC_HOP_RECEIVE (R152). -/
def execFabricHopReceive (pid : Nat) (rx : HopRx) (s : State) : Host.Outcome State Fault Refusal :=
  live s (match rx.outside with
    | some h => outsideHop h rx.crcOk s
    | none => hopReceive pid rx.crcOk s)

end Sys2Proof.Machine
end

