-- ==== Sys2Proof/Machine/Streams.lean ====
section
/-! DEFINITION. Streams: the sequencer's fetch and issue (R94, R95, R118), and the control macro-ops that act within a core
(R103, R104, R108, R118 to R121). -/

namespace Sys2Proof.Machine

/-! ### The sequencer -/

/-- Whether a sequencer goes on fetching and issuing (R120, R121, R137). -/
def seqActive (q : Seqr) : Bool := q.st == .running && !q.ended && q.trp.isNone && !q.waitPwr

/-- Whether the unit fetched last holds the macro-op at the sequencer's address. -/
def bufHolds (q : Seqr) : Bool :=
  match q.buf with
  | some (a, _) => decide (a ≤ q.pc) && decide (q.pc < a + 64)
  | none => false

/-- The 64-byte unit at `u` fetched under a translation: PROGRAM_RANGE outside the cluster's own slice (R94), BUS_ERROR at a word in
error (R269). -/
def fetchUnit (dc n u : Nat) (t : Tlb) (s : State) : State :=
  if !inOwnTarn s dc (t.at u) then seqFault dc n fcProgramRange s
  else match paLoc s (t.at u) with
    | none => seqFault dc n fcProgramRange s
    | some l =>
      let x := memLoad l 64 2 s
      match x.2.1 with
      | some _ => seqFault dc n fcBusError x.1
      | none => updSeq x.1 dc n fun q => { q with buf := some (u, x.2.2) }

/-- The unit that holds the next macro-op is fetched (R94): PROGRAM_RANGE at the limit, PAGE_FAULT without a translation; a translation
miss starts a walk (R196). -/
def seqFetchEff (dc n : Nat) (s : State) : State :=
  let q := getSeq s dc n
  if !seqActive q || bufHolds q then s
  else if q.limit ≤ q.pc then seqFault dc n fcProgramRange s
  else
    let u := q.pc / 64 * 64
    let r := xlLook (.cluster dc) (dcPart s dc) u s
    match r.2 with
    | .off => seqFault dc n fcPageFault r.1
    | .miss kv =>
      let va := u / 0x1_0000 * 0x1_0000
      if r.1.walks.any fun w => w.req == .seq n && w.who == .cluster dc && w.va == va then r.1
      else { r.1 with
        walks := r.1.walks ++ [⟨r.1.nextWalk, .cluster dc, (dcPart s dc).getD 0, va, kv, .seq n⟩]
        nextWalk := r.1.nextWalk + 1 }
    | .hit t => fetchUnit dc n u t r.1

/-- The macro-op word at the sequencer's address. -/
def seqWord (q : Seqr) : W64 :=
  match q.buf with
  | some (a, bs) => w64 (fieldAt bs (q.pc - a) 8)
  | none => 0

/-- Whether every core of the stream has a free queue entry (R95); a FAULTED core discards what it is given (R124). -/
def queuesFree (s : State) (dc n : Nat) : Bool :=
  (streamCores s dc n).all fun c => let k := getCore s c; k.st == .faulted || decide (k.queue.length < 32)

/-- A macro-op issued to every core of the stream (R94, R95, R124). -/
def issueTo (dc n : Nat) (e : QEnt) (s : State) : State :=
  forEach (streamCores s dc n) (fun s c => updCore s c fun k =>
    if k.st = .faulted then k else { k with queue := k.queue ++ [e] })
    (updSeq s dc n fun q => { q with issued := q.issued + 1 })

/-- The sequencer after a macro-op whose successor is at `pc`. -/
def seqTo (dc n pc : Nat) (s : State) : State := updSeq s dc n fun q => { q with pc := pc }

/-- The macro-op at the sequencer's address is issued, with what LPB, LPE, END and TRP do to the sequencer (R94, R118, R120, R121); the body of
a loop is fetched afresh for each iteration. DESIGN CHOICE: an LPB with COUNT = 0 opens no loop, so that it is skipped without LOOP_DEPTH
with four loops open, and an undefined opcode within a skipped body, which is not issued, is passed over without ILLEGAL_OP. -/
def seqIssueEff (dc n : Nat) (s : State) : State :=
  let q := getSeq s dc n
  if !seqActive q || !bufHolds q then s
  else if q.limit ≤ q.pc then seqFault dc n fcProgramRange s
  else
    let w := seqWord q
    let o := mwOp w
    let next := q.pc + 8
    let e : QEnt := ⟨w, q.pc⟩
    if 0 < q.skip then
      -- inside a body that COUNT = 0 skips: nothing is issued (R118)
      let k := if o = ocLpb then q.skip + 1 else if o = ocLpe then q.skip - 1 else q.skip
      updSeq s dc n fun q => { q with pc := next, skip := k }
    else if !definedOps.contains o then seqFault dc n fcIllegalOp s
    else if o = ocLpb ∧ mwCount w = 0 then updSeq s dc n fun q => { q with pc := next, skip := 1 }
    else if o = ocLpb ∧ 4 ≤ q.loops.length then seqFault dc n fcLoopDepth s
    else if o = ocLpe ∧ q.loops.isEmpty then seqFault dc n fcLoopMismatch s
    else if o = ocEnd ∧ !q.loops.isEmpty then seqFault dc n fcLoopMismatch s
    else if !queuesFree s dc n then s
    else
      let s1 := issueTo dc n e s
      if o = ocLpb then
        updSeq s1 dc n fun q => { q with pc := next, loops := ⟨next, mwCount w⟩ :: q.loops }
      else if o = ocLpe then
        match q.loops with
        | [] => s1
        | l :: ls =>
          if 1 < l.left then updSeq s1 dc n fun q => { q with pc := l.body, loops := ⟨l.body, l.left - 1⟩ :: ls, buf := none }
          else updSeq s1 dc n fun q => { q with pc := next, loops := ls }
      else if o = ocEnd then checkSeqEnd dc n (updSeq s1 dc n fun q => { q with pc := next, ended := true })
      else if o = ocTrp then updSeq s1 dc n fun q => { q with pc := next, trp := some (mwImm w % 65536, q.pc) }
      else seqTo dc n next s1

/-- SEQ_FETCH (R94). -/
def execSeqFetch (dc seq : Nat) (s : State) : Host.Outcome State Fault Refusal := live s (seqFetchEff dc seq s)

/-- SEQ_ISSUE (R95). -/
def execSeqIssue (dc seq : Nat) (s : State) : Host.Outcome State Fault Refusal := live s (seqIssueEff dc seq s)

/-! ### Control macro-ops within a core -/

/-- NOP (R108): it lasts its cycles and changes nothing. -/
def execNop (lci : Nat) (s : State) : Host.Outcome State Fault Refusal :=
  live s (dispatchCtrl lci ocNop (fun _ s => s) s)

/-- END (R120): the core waits until it can complete it. -/
def execEndOp (lci : Nat) (s : State) : Host.Outcome State Fault Refusal :=
  live s (dispatchCtrl lci ocEnd (fun _ s => updCore s lci fun k => { k with hold := some .endOp }) s)

/-- The descriptors that a mask names. -/
def maskDescs (m : Nat) : List Nat := (List.range 32).filter (natBit m)

/-- A loop opened in a core: the advances of the masked descriptors recorded (R118). -/
def openLoop (w : W64) (k : Core) : Core :=
  let m := mwImm w
  { k with loops := ⟨m, (maskDescs m).map fun d => (d, smapGet 0 k.adv d), mwCount w⟩ :: k.loops }

/-- LPE in a core: the masked advances move by STRIDE1, or return to their values at the LPB when the loop exits (R118). -/
def closeLoop (k : Core) : Core :=
  match k.loops with
  | [] => k
  | f :: fs =>
    if 1 < f.left then
      { k with
        loops := { f with left := f.left - 1 } :: fs
        adv := (maskDescs f.mask).foldl (fun m d => smapSet 0 m d (smapGet 0 m d + (coreRegion k d).stride1)) k.adv }
    else { k with loops := fs, adv := f.saved.foldl (fun m e => smapSet 0 m e.1 e.2) k.adv }

/-- LPB (R118). -/
def execLpb (lci : Nat) (s : State) : Host.Outcome State Fault Refusal :=
  live s (dispatchCtrl lci ocLpb (fun e s => updCore s lci (openLoop e.word)) s)

/-- LPE (R118). -/
def execLpe (lci : Nat) (s : State) : Host.Outcome State Fault Refusal :=
  live s (dispatchCtrl lci ocLpe (fun _ s => updCore s lci closeLoop) s)

/-- The predicate after a PRD (R119). -/
def prdValue (c : Nat) (k : Core) (w : W64) : Bool :=
  let i := mwImm w
  let within := fun v => decide (i % 256 ≤ v) && decide (v ≤ natBits i 15 8)
  match mwSub w % 8 with
  | 0 => natBit i 0
  | 1 => within (lciRow c)
  | 2 => within (lciCol c)
  | 3 => within (dcClu (lciDc c))
  | 4 => smapGet 0 k.flags (i % 16) != 0
  | _ => !k.pred

/-- PRD (R119). -/
def execPrd (lci : Nat) (s : State) : Host.Outcome State Fault Refusal :=
  live s (dispatchCtrl lci ocPrd (fun e s => updCore s lci fun k => { k with pred := prdValue lci k e.word }) s)

/-- A core that waits at a TRP it traps at enters TRAPPED once its earlier macro-ops have completed, and records the trap (R98, R121). -/
def settleTrap (c : Nat) (s : State) : State :=
  let k := getCore s c
  match k.hold with
  | some (.trp code addr true) =>
    if k.st == .running && k.ops.isEmpty then
      let start := (getSeq s (lciDc c) k.bindSeq).start
      updCore s c fun k => { k with
        st := .trapped
        trapReg := w64 (0xF0 + 2 ^ 16 * code + 2 ^ 32 * ((addr - start) / 8 % 2 ^ 32)) }
    else s
  | _ => s

/-- TRP in a core (R121): it waits there; it traps where its PG test passes. -/
def trpEff (c : Nat) (s : State) : State :=
  if !dispatchable s c ocTrp then s else
  let e := frontOp s c
  let pass := !pgSkips (getCore s c) e.word
  settleCore c <| settleTrap c <| updCore (popQueue c s) c fun k =>
    { k with hold := some (.trp (mwImm e.word % 65536) e.addr pass) }

/-- TRP (R121). -/
def execTrp (lci : Nat) (s : State) : Host.Outcome State Fault Refusal := live s (trpEff lci s)

/-! ### Completion -/

/-- A macro-op in a unit completes (R104): its interlocks and its slot are released, an SCL lets dispatch go on, and what can start
is started. -/
def completeOp (c id : Nat) (s : State) : State :=
  match findOp (getCore s c) id with
  | none => s
  | some p =>
    if p.started && p.formed && p.todo.isEmpty && p.waits.isEmpty && coreLive s c then
      settleTrap c <| pump c <| updCore (dropOp c id s) c fun k =>
        { k with hold := if k.hold = some (.scl id) then none else k.hold }
    else s

/-- MACRO_OP_COMPLETE (R104). -/
def execMacroOpComplete (lci op : Nat) (s : State) : Host.Outcome State Fault Refusal := live s (completeOp lci op s)

/-- Whether a core that holds END can complete it (R120): no macro-op left, no remote write unanswered. -/
def endReady (k : Core) : Bool := k.hold == some .endOp && k.ops.isEmpty && !k.out.any fun o => o.kind != .read

/-- CORE_END_COMPLETE (R120): the core returns to IDLE and keeps its binding; the last one ends the stream. -/
def coreEndEff (c : Nat) (s : State) : State :=
  let k := getCore s c
  if k.st == .running && coreLive s c && endReady k then
    checkSeqEnd (lciDc c) k.bindSeq <|
      updCore s c fun k => { k with st := .idle, hold := none, loops := [], adv := [] }
  else s

/-- CORE_END_COMPLETE (R120). -/
def execCoreEndComplete (lci : Nat) (s : State) : Host.Outcome State Fault Refusal := live s (coreEndEff lci s)

end Sys2Proof.Machine
end

