-- ==== Sys2Proof/Machine/Walks.lean ====
section
/-! DEFINITION. The ends of walks and invalidations (R196, R198, R256), answers at their sources (R172), and the end of doubled refresh (R204). -/

namespace Sys2Proof.Machine

/-! ### Walks -/

/-- What a sequencer's fetch does with the end of the walk it waited for (R94, R195, R269). -/
def seqWalked (dc n va : Nat) (e : XlEnd) (s : State) : State :=
  let q := getSeq s dc n
  let u := q.pc / 64 * 64
  if !seqActive q || bufHolds q || u / 0x1_0000 * 0x1_0000 != va then s else
  match e with
  | .fault => seqFault dc n fcPageFault s
  | .busError _ => seqFault dc n fcBusError s
  | .ok t => fetchUnit dc n u t s

/-- What a transfer does with the end of a walk it waited for (R101, R195, R269). -/
def opWalked (c id va : Nat) (e : XlEnd) (s : State) : State :=
  match findOp (getCore s c) id with
  | none => s
  | some p =>
    match e with
    | .fault => opFault c p fcPageFault (pageAddr p (va / 0x1_0000)) s
    | .busError a => opFault c p fcBusError a s
    | .ok t => resolveOp c id (takePage c id (va / 0x1_0000) t s)

/-- A walk ends (R196, R256): its translation is held, or a failure answered to the access it delayed. -/
def walkDone (w : Walk) (s : State) : State :=
  let s0 := { s with walks := s.walks.filter fun x => x.id != w.id }
  let r := xlWalk w.who w.part w.va w.kv s0
  match w.req, w.who with
  | .seq n, .cluster dc => seqWalked dc n w.va r.2 r.1
  | .op c id, _ => opWalked c id w.va r.2 r.1
  | _, _ => r.1

/-- The walk with a number of a kind; a KV walker does one walk at a time, in order (R256). -/
def walkReady (s : State) (id : Nat) (kv : Bool) : Option Walk :=
  match s.walks.find? fun w => w.id == id && w.kv == kv with
  | none => none
  | some w => if kv && (s.walks.find? fun x => x.kv && x.who == w.who) != some w then none else some w

/-- TRANSLATION_WALK_COMPLETE (R196). -/
def execTranslationWalkComplete (walk : Nat) (s : State) : Host.Outcome State Fault Refusal :=
  live s (match walkReady s walk false with
    | some w => walkDone w s
    | none => s)

/-- KV_WALK_COMPLETE (R256). -/
def execKvWalkComplete (walk : Nat) (s : State) : Host.Outcome State Fault Refusal :=
  live s (match walkReady s walk true with
    | some w => walkDone w s
    | none => s)

/-! ### Invalidations (R197, R198) -/

/-- Whether an access that used what an invalidation removed is still in progress: not yet committed or answered (R198). -/
def invHeld (s : State) (i : Inv) : Bool :=
  (i.ops.any fun x => (getCore s x.1).ops.any fun p => p.id == x.2 && opUses i.what p) || s.net.pkts.any fun p => i.pids.contains p.id

/-- XLAT_INV_COMPLETE (R198): the oldest invalidation of a unit completes, and an XLAT_INVAL whose invalidations are all done is answered. -/
def invComplete (u : UnitName) (s : State) : State :=
  match (getX s u).inv with
  | [] => s
  | i :: _ =>
    if invHeld s i then s else settleInvals (nextInv u s)

/-- XLAT_INV_COMPLETE (R198). -/
def execXlatInvComplete (unit : UnitName) (s : State) : Host.Outcome State Fault Refusal := live s (invComplete unit s)

/-! ### Answers (R172, R176, R350) -/

/-- A neighbour's RPUT answered once every packet of it has been (R347, R350): the first status in message order that is not COMMIT. -/
def rputAnswered (k req : Nat) (st : FabStatus) (s : State) : State :=
  let code := match st with
    | .commit => 0 | .windowClosed => 1 | .noWindow => 2 | .resetAbort => 3 | .busError => 4 | .address => 5
  match (getPort s k).rputs.find? fun j => j.pids.contains req with
  | none => s
  | some j =>
    let bad := if code = 0 then j.bad else
      match j.bad with
      | some (i, c) => if req < i then some (req, code) else some (i, c)
      | none => some (req, code)
    let left := j.pids.filter (· != req)
    let rest := (getPort s k).rputs.filter fun x => !x.pids.contains req
    if left.isEmpty then
      sendAnswer k j.dpart j.spart j.mtag ((bad.map (·.2)).getD 0) (updPort s k fun p => { p with rputs := rest })
    else updPort s k fun p => { p with rputs := mapIf (fun x => x.pids.contains req) (fun x => { x with pids := left, bad := bad }) p.rputs }

/-- Whether a transfer of an I/O port waits for the answer to a packet. -/
def jobWaits (s : State) (pid : Nat) : Bool :=
  (s.aps.any fun e => (e.2.cur.bind (·.job)).any fun j => (j.wait.map (·.1)) == some pid) ||
    (s.aps.any fun e => (e.2.cur.bind (·.bcast)).any fun j => j.wait.contains pid) ||
    s.links.any fun e => e.2.job.any fun j => (j.job.wait.map (·.1)) == some pid

/-- An answer at an I/O port kept for the transfer that waits for it. -/
def keepAck (p : Pkt) (s : State) : State :=
  if jobWaits s p.req then updNet s fun t => { t with acks := t.acks ++ [(p.req, p.status, p.errAddr)] } else s

/-- FABRIC_ANSWER (R172): copied at a switch that combined, or taken at its source, whose core may then send further packets (R162). -/
def answerArrive (pid : Nat) (s : State) : State :=
  match findPkt s pid with
  | none => s
  | some p =>
    if p.kind ≠ .answer then s else
    match tableEntry s p with
    | some e => copyBack p e s
    | none =>
      if !arrived s p then s else
      match p.dst with
      | .core c => sendAll c (settleWrite c p.req p.status p.errAddr (dropPkt pid (passOut p s)))
      | .link k =>
        if (getPort s k).rputs.any fun j => j.pids.contains p.req then rputAnswered k p.req p.status (dropPkt pid (passOut p s))
        else keepAck p (dropPkt pid (passOut p s))
      | _ => keepAck p (dropPkt pid (passOut p s))

/-- FABRIC_ANSWER (R172). -/
def execFabricAnswer (pid : Nat) (s : State) : Host.Outcome State Fault Refusal := live s (answerArrive pid s)

/-! ### Doubled refresh (R204) -/

/-- DIE_REF_HOT_CLEAR (R204): every reading is at or below 83.0 °C, and has been for 1 ms. -/
def dieRefCool (k d : Nat) (s : State) : State :=
  if k < 6 ∧ d < s.mdies ∧ (dieReadings s k d).all (fun t => decide (t ≤ 664)) then
    updMDie s k d fun x => { x with hot := false, src := dieModelled s k d }
  else s

/-- DIE_REF_HOT_CLEAR (R204). -/
def execDieRefHotClear (stack mdie : Nat) (s : State) : Host.Outcome State Fault Refusal := live s (dieRefCool stack mdie s)

end Sys2Proof.Machine
end

