-- ==== Sys2Proof/Machine/LinkRx.lean ====
section
/-! DEFINITION. The receiving side of a Rorek Link port (R339, R341 to R353): flits, message assembly, tags, and the neighbour's messages. -/

namespace Sys2Proof.Machine

/-! ### DOWN (R339) and DEV_COMMIT's reply (R412) -/

/-- The offsets measured on ACTIVE ports in the last 10 ms (R465) of the local clock (R466). -/
def freshOffsets (s : State) : List Int :=
  (List.range 6).filterMap fun k =>
    let p := getPort s k
    if p.st == .active && decide (s.dev.clock ≤ p.offAt + 10000000) then p.offset else none

/-- The largest of them, 0 where there is none. -/
def topOffset (s : State) : Int := (freshOffsets s).foldl max 0

/-- A forward step of the time base (R465): the offsets measured before it are those of the stepped clock, and an exchange begun before it
is not used. -/
def stepTime (o : Int) (s : State) : State :=
  let n := o.toNat
  let s1 := updDev s fun d => { d with time := (d.time + n) % 2 ^ 64, stepAt := (d.time + n) % 2 ^ 64, fast := false, fastAcc := 0 }
  warn 4 0x01 0xFF 0xFF 0xFF <| forEach (List.range 6) (fun s k => updPort s k fun p =>
    { p with offset := p.offset.map (· - o), haveSync := false, lastT1 := 0, lastT4 := 0 }) s1

/-- The steering of R465 by the offsets in force. -/
def steer (s : State) : State :=
  let o := topOffset s
  if 1000000 < o then stepTime o s else updDev s fun d => { d with fast := decide (5 < o) }

/-- A nanosecond of the local clock (R466) and of the time base (R464), which takes one more in every 5,000 while it counts 200 ppm fast (R465). -/
def tick (s : State) : State :=
  if awake s then
    let fast := decide (5 < topOffset s)
    updDev s fun d =>
      if fast && d.fastAcc == 4999 then { d with clock := d.clock + 1, time := (d.time + 2) % 2 ^ 64, fast := true, fastAcc := 0 }
      else { d with clock := d.clock + 1, time := (d.time + 1) % 2 ^ 64, fast := fast, fastAcc := if fast then d.fastAcc + 1 else 0 }
  else s

/-- READY once every named port is ACTIVE or has ended its first attempt (R412); the reply gives each port's state. -/
def settleCommit (s : State) : State :=
  let ended := fun k => let p := getPort s k; !p.named || p.firstDone || p.st == .active
  if s.dev.committing && (List.range 6).all ended then
    let s1 := updDev s fun d => { d with st := .ready, committing := false }
    forEach (apsWaiting s1 fun _ c => c.opcode == 0x32) (fun s a =>
      finish a stOk (mkResult ((List.range 6).map fun k => (k, 1, (getPort s k).st.code))) s) s1
  else s

/-- A port enters DOWN (R339, R356): its keys are erased, its buffers discarded, the requests it had sent answered BUS_ERROR. -/
def portDown (k reason : Nat) (s : State) : State :=
  let p := getPort s k
  let live := (List.range 6).filter fun q => let c := getChain s k q; c.st == .running || c.st == .waiting
  let s1 := updPort s k fun p =>
    { st := .down, width := 3, reason := reason, peer := p.peer, pport := p.pport, txFlits := p.txFlits, rxFlits := p.rxFlits
      replays := p.replays, crcErr := p.crcErr, uncorr := p.uncorr, corr := p.corr, authFail := p.authFail, retrains := p.retrains
      txBytes := p.txBytes, rxBytes := p.rxBytes, named := p.named, firstDone := true, txOut := p.txOut, chains := p.chains
      lastPart := p.lastPart }
  let s2 := if p.st = .down then s1 else linkEvent k 0 0xFF 0 0 s1
  settleCommit (steer (forEach live (fun s q => chainError k q 4 s) s2))

/-! ### Flits (R341 to R344) -/

/-- The units of a message from its header. -/
def msgUnits (h : MsgHdr) (tagged : Bool) : Nat := 1 + h.plen + bit tagged

/-- A header that breaks R346 or R348, or that does not belong on its virtual channel (R344); a GETRESP carries nothing, or what its GET asked. -/
def headBad (p : Port) (v : Nat) (u : List Byte) : Bool :=
  let h := parseHdr u
  hdrBad u || msgVc h.type != some v || (h.type == mtControl && (h.csub == 0 || decide (4 < h.csub)))
    || (h.type == mtGetResp && h.plen != 0 && p.reqs.any fun r => r.mtag == h.mtag && r.isGet && r.len != 16 * h.plen)

/-- One unit received at time base `now` on a virtual channel (R345): it begins a message or continues one; none for a protocol violation. -/
def takeUnit (now v : Nat) (u : List Byte) (p : Port) : Option Port :=
  let p := { p with rxUsed := smapUpd 0 p.rxUsed v (· + 1) }
  match takeOut (fun m => m.vc == v) p.rxPart with
  | some (m, rest) =>
    let m1 := { m with bytes := m.bytes ++ u }
    if 16 * msgUnits (parseHdr m1.bytes) m1.tagged ≤ m1.bytes.length then some { p with rxPart := rest, inbox := p.inbox ++ [m1] }
    else some { p with rxPart := rest ++ [m1] }
  | none =>
    if headBad p v u then none else
    let h := parseHdr u
    let tagged := p.finRecv || h.type != mtControl || h.csub == 4
    let m : InMsg := ⟨v, tagged, p.rxCount, now, u⟩
    let p1 := { p with
      rxCount := p.rxCount + bit tagged
      finRecv := p.finRecv || (h.type == mtControl && h.csub == 4) }
    if msgUnits h tagged = 1 then some { p1 with inbox := p1.inbox ++ [m] } else some { p1 with rxPart := p1.rxPart ++ [m] }

/-- The units of a flit accepted at time base `now`, in order. -/
def takeFlit (now : Nat) (bs : List Byte) (umap : Nat) : List Nat → Port → Option Port
  | [], p => some p
  | u :: us, p =>
    let v := umap / 4 ^ u % 4
    if v = 3 then takeFlit now bs umap us p
    else match takeUnit now v (bytesAt bs (12 + 16 * u) 16) p with
      | none => none
      | some p1 => takeFlit now bs umap us p1

/-- Whether more credit has been spent on a virtual channel than its receiver has granted (R342, R344). -/
def overspent (p : Port) : Bool :=
  [0, 1, 2].any fun v => decide (vcUnits v + 16 * (smapGet 0 p.rxFreed v / 16) < smapGet 0 p.rxUsed v)

/-- ACK and the credit fields of a flit (R342, R343): flits up to ACK leave the replay buffer, and each step of a field is 256 bytes. -/
def takeAcks (head : Nat) (p : Port) : Port :=
  let ack := natBits head 24 13
  let crd := fun (v : Nat) => natBits head (67 + 12 * v) (56 + 12 * v)
  let seen := [0, 1, 2].foldl (fun m v =>
    let old := smapGet 0 m v
    smapSet 0 m v (old + (crd v + 4096 - old % 4096) % 4096)) p.crdSeen
  let p1 := { p with crdSeen := seen }
  match p.replay.findIdx? fun f => f.seq == ack with
  | none => p1
  | some i => { p1 with replay := p1.replay.drop (i + 1), txAck := ack, replayRun := 0 }

/-- A data flit rejected (R343): NAK goes with the next flit, once in a run of rejections. -/
def rejectFlit (p : Port) : Port := if p.rejecting then p else { p with rejecting := true, nak := true }

/-- A replay (R339, R343): the sixteenth in a row of one flit takes the port DOWN. -/
def replay (k : Nat) (s : State) : State :=
  let p := getPort s k
  if p.replay.isEmpty || !linkUp p then s
  else if 15 ≤ p.replayRun then portDown k 5 (updPort s k fun p => { p with replays := p.replays + 1 })
  else updPort s k replayPort

/-- What waits is sent, and the partition chains with it; where no flit has gone since `sent`, a null flit carries ACK, NAK and credit. -/
def answerBack (k sent : Nat) (s : State) : State :=
  let s1 := updPort s k (pumpPort s.dev.time k)
  let p := getPort s1 k
  if linkUp p && p.txOut.length == sent then updPort s1 k sendNull else s1

/-- A flit whose CRC passes (R341 to R344). -/
def flitGood (k sent : Nat) (bs : List Byte) (s : State) : State :=
  let head := leNat (bs.take 12)
  if natBits head 95 92 ≠ 0 then portDown k 6 s else
  let p := takeAcks head (getPort s k)
  let data := natBit head 0
  let seq := natBits head 12 1
  let got : Option Port :=
    if !data then some p
    else if seq ≠ (p.ack + 1) % 4096 then some (rejectFlit p)
    else takeFlit s.dev.time bs (natBits head 55 26) (List.range 15) { p with ack := seq, rejecting := false, nak := false, rxFlits := p.rxFlits + 1 }
  match got with
  | none => portDown k 6 s
  | some p1 =>
    if overspent p1 then portDown k 6 s else
    let s1 := updPort s k fun _ => p1
    answerBack k sent (if natBit head 25 then replay k s1 else s1)

/-- FLIT_RECEIVE (R331, R333, R341 to R344): the flit that the neighbour sent next, and what the channel did to the codewords, by physical lane,
that begin to be delivered with it. -/
def flitIn (k : Nat) (flit : List Byte) (noise : List (Nat × List (Nat × Nat))) (s : State) : State :=
  let p := getPort s k
  if !linkUp p && p.st != .retrain then s else
  let r := rxLanes noise flit p
  let bs := r.2
  let s1 := updPort s k fun _ => r.1
  if crc32c (bs.take 252) = fieldAt bs 252 4 then flitGood k p.txOut.length bs s1
  else answerBack k p.txOut.length (updPort s1 k fun p => rejectFlit { p with crcErr := p.crcErr + 1 })

/-- FLIT_RECEIVE (R343). -/
def execFlitReceive (port : Nat) (flit : List Byte) (lanes : List Nat) (errs : List (List (Nat × Nat))) (s : State) :
    Host.Outcome State Fault Refusal := live s (flitIn port flit (lanes.zip errs) s)

/-- REPLAY_TIMEOUT (R343): ACK has not advanced for 1 µs while flits are outstanding. -/
def execReplayTimeout (port : Nat) (s : State) : Host.Outcome State Fault Refusal := live s (replay port s)

/-! ### Taking a message (R345, R349) -/

/-- The payload of a message in the clear; none where its tag fails, or where no key stands (R349). -/
def openMsg (p : Port) (m : InMsg) : Option (List Byte) :=
  let n := 16 * (parseHdr m.bytes).plen
  let body := bytesAt m.bytes 16 n
  if !m.tagged then some body
  else if !p.keyed then none
  else gcmOpen p.keyRx (linkNonce m.count p.pport) (m.bytes.take 16) body (bytesAt m.bytes (16 + n) 16)

/-- A message leaves the receive buffer, and its units are free (R342). -/
def freeMsg (m : InMsg) (rest : List InMsg) (p : Port) : Port :=
  { p with inbox := rest, rxFreed := smapUpd 0 p.rxFreed m.vc (· + m.bytes.length / 16) }

/-- The oldest message of a virtual channel handled, where its header is the one asked for: its tag is verified first (R349, R350). -/
def withMsg (k v : Nat) (sel : MsgHdr → Bool) (f : InMsg → MsgHdr → List Byte → State → State) (s : State) : State :=
  let p := getPort s k
  match takeOut (fun m => m.vc == v) p.inbox with
  | none => s
  | some (m, rest) =>
    let h := parseHdr m.bytes
    if !sel h then s else
    match openMsg p m with
    | none => portDown k 3 (updPort s k fun p => { freeMsg m rest p with authFail := p.authFail + 1 })
    | some data =>
      answerBack k p.txOut.length (f m h data (updPort s k fun p => { freeMsg m rest p with rxBytes := inc64 p.rxBytes data.length }))

/-- Whether a port serves messages: only an ACTIVE one does (R412). -/
def serves (s : State) (k : Nat) : Bool := (getPort s k).st == .active

/-! ### Serving the neighbour (R347, R350, R352, R353) -/

/-- Whether the messages to a partition are served (R347, R353). -/
def partServed (s : State) (q : Nat) : Bool :=
  let p := getPart s q
  (p.st == .ready || p.st == .running || p.st == .draining) && p.resetting.isNone

/-- The status of R347 for a code of R123. -/
def linkStatus (code : Nat) : Nat :=
  if code = fcWindowClosed then 1 else if code = fcNoWindow then 2 else if code = fcResetAbort then 3 else if code = fcBusError then 4
  else if code = fcPageFault then 6 else if code = fcPermission then 7 else 5

/-- Whether a message's package scratchpad address names cores of its partition (R99, R101), and below the register page for a write. -/
def spmServed (s : State) (q a n : Nat) (wr : Bool) : Bool :=
  spmRangeOk s (some q) a n && (!wr || decide (a % 32768 + n ≤ 0x7000))

/-- The packets of a PUT, or the status that refuses it before any (R350). -/
def putJob (k : Nat) (h : MsgHdr) (data : List Byte) (s : State) : State × (Nat ⊕ OutJob) :=
  let n := data.length
  if !partServed s h.dpart then (s, .inl 8)
  else if h.dspace = 3 then (s, if spmServed s h.dpart h.addr n true then .inr (newJob true data (packetsOf [(h.addr, n)])) else .inl 5)
  else
    let x := xlRange (.portDie (k / 2)) (some h.dpart) true true (cutPages h.addr n) s
    match x.2 with
    | .bad code _ => (x.1, .inl (linkStatus code))
    | .ok ps => (x.1, .inr (newJob false data (packetsOf ps)))

/-- What a PUT to a core does to the notification that waits on it (R352). -/
def noteOf (p : Port) (spart core : Nat) : Bool := p.notes.any fun n => n.spart == spart && n.core == core && n.dropped

/-- The notification of R352: after a PUT to a core with an answer of `st`, the flag rises if every PUT since the previous NOTIFY was COMMIT. -/
def notePut (k : Nat) (h : MsgHdr) (st : Nat) (s : State) : State :=
  if h.dspace ≠ 3 then s else
  let core := h.addr / 32768
  let bad := noteOf (getPort s k) h.spart core || st != 0
  let others := fun (p : Port) => p.notes.filter fun n => !(n.spart == h.spart && n.core == core)
  if h.notify then
    let s1 := updPort s k fun p => { p with notes := others p }
    let x := crossNow .control (.link k) (.core core) 0 s1
    if bad || !x.2 || !coreLive x.1 core then x.1 else incFlag core h.nflag ocPut x.1
  else updPort s k fun p => { p with notes := others p ++ (if bad then [⟨h.spart, core, true⟩] else []) }

/-- A PUT has been written or refused (R350, R352): its ANSWER, after its notification. -/
def putDone (k : Nat) (h : MsgHdr) (st : Nat) (s : State) : State := sendAnswer k h.dpart h.spart h.mtag st (notePut k h st s)

/-- The packets of a PUT go on (R350), and it is answered once each of them has been. -/
def putStep (k : Nat) (h : MsgHdr) (j : OutJob) (s : State) : State :=
  let r := runJob (.link k) j s
  let st := match r.2.first with | some (st, _) => linkStatus st.fault | none => 0
  if r.2.over then putDone k h st (updPort r.1 k fun p => { p with job := none })
  else updPort r.1 k fun p => { p with job := some ⟨h.bytes, r.2⟩ }

/-- A PUT whose tag has passed (R350). -/
def putIn (k : Nat) (h : MsgHdr) (data : List Byte) (s : State) : State :=
  let r := putJob k h data s
  match r.2 with
  | .inl st => putDone k h st r.1
  | .inr j => putStep k h j r.1

/-- The message of a type that a port serves next on VC1 (R350): it goes on with the one whose packets an owner holds back (R146), before any other. -/
def serveVc1 (k type : Nat) (go : MsgHdr → OutJob → State → State) (f : MsgHdr → List Byte → State → State) (s : State) : State :=
  if !serves s k then s else
  match (getPort s k).job with
  | none => withMsg k 1 (fun h => h.type == type) (fun _ h data s => f h data s) s
  | some x => if (parseHdr x.hdr).type = type then go (parseHdr x.hdr) x.job s else s

/-- LINK_PUT (R350, R352). -/
def execLinkPut (port : Nat) (s : State) : Host.Outcome State Fault Refusal := live s (serveVc1 port mtPut (putStep port) (putIn port) s)

/-- A GET's bytes read (R350): the status and the data. -/
def getBytes (k : Nat) (h : MsgHdr) (s : State) : State × Nat × List Byte :=
  let n := 16 * h.glen
  if !partServed s h.dpart then (s, 8, [])
  else if h.dspace = 3 then
    if !spmServed s h.dpart h.addr n false then (s, 5, []) else
    let r := spmRead (.link k) h.addr n s
    match r.2.1 with
    | some (st, _) => (r.1, linkStatus st.fault, [])
    | none => (r.1, 0, r.2.2)
  else
    let x := xlRange (.portDie (k / 2)) (some h.dpart) false true (cutPages h.addr n) s
    match x.2 with
    | .bad code _ => (x.1, linkStatus code, [])
    | .ok ps =>
      let r := farLoad (.link k) 8 ps x.1
      match r.2.1 with
      | some _ => (r.1, 4, [])
      | none => (r.1, 0, r.2.2)

/-- LINK_GET (R350). -/
def execLinkGet (port : Nat) (s : State) : Host.Outcome State Fault Refusal :=
  live s (serveVc1 port mtGet (fun _ _ s => s) (fun h _ s =>
    let r := getBytes port h s
    sendMsg port { type := mtGetResp, plen := r.2.2.length / 16, dpart := h.spart, spart := h.dpart, mtag := h.mtag, status := r.2.1 } r.2.2 r.1) s)

/-- Whether a run lies in one core's PSP. -/
def inPsp (a n : Nat) : Bool := decide (0x6000 ≤ a % 32768) && decide (a % 32768 + n ≤ 0x7000)

/-- An RPUT's reduction packets sent (R170, R350): the numbers of their requests, in message order. -/
def rputPackets (k : Nat) (h : MsgHdr) (data : List Byte) (s : State) : State × List Nat :=
  (cutLines h.addr data.length).foldl (fun (acc : State × List Nat) x =>
    let c := x.1 / 32768
    let pk := { blankPkt .reduction (.link k) (.core c) 2 (some h.dpart) with
      addr := spmPa c (x.1 % 32768), data := (bytesAt data (x.1 - h.addr) x.2).map some, tag := 0, fmt := fmFp32 }
    let r := sendPkt pk acc.1
    (r.1, acc.2 ++ [r.2])) (s, [])

/-- LINK_RPUT (R350): answered at once where it fails, else once every packet has been (R172). -/
def execLinkRput (port : Nat) (s : State) : Host.Outcome State Fault Refusal :=
  live s (if serves s port then
    withMsg port 2 (fun h => h.type == mtRput) (fun _ h data s =>
      if !partServed s h.dpart then sendAnswer port h.dpart h.spart h.mtag 8 s
      else if h.dspace ≠ 3 || !spmServed s h.dpart h.addr data.length true || !inPsp h.addr data.length then
        sendAnswer port h.dpart h.spart h.mtag 5 s
      else
        let r := rputPackets port h data s
        updPort r.1 port fun p => { p with rputs := p.rputs ++ [⟨h.mtag, h.dpart, h.spart, r.2, none⟩] }) s
  else s)

/-! ### Answers to the port's own requests (R347, R355, R356) -/

/-- The request that an answer names, with the others. -/
def takeReq (p : Port) (tag : Nat) (isGet : Bool) : Option (LinkReq × List LinkReq) := takeOut (fun r => r.mtag == tag && r.isGet == isGet) p.reqs

/-- A GET of the port's own is over (R347, R356): its tag is free, and a failure ends its chain's descriptor. -/
def getDone (k tag code : Nat) (s : State) : State :=
  match takeReq (getPort s k) tag true with
  | none => s
  | some (r, rest) =>
    let s1 := updPort s k fun p => { p with reqs := rest }
    pumpChains k (if r.part < 6 ∧ code ≠ 0 then chainError k r.part code s1 else s1)

/-- The packets of a GETRESP go on. -/
def respStep (k : Nat) (h : MsgHdr) (j : OutJob) (s : State) : State :=
  let r := runJob (.link k) j s
  let code := match r.2.first with | some (st, _) => st.fault | none => 0
  if r.2.over then getDone k h.mtag code (updPort r.1 k fun p => { p with job := none })
  else updPort r.1 k fun p => { p with job := some ⟨h.bytes, r.2⟩ }

/-- GETRESP (R347): its data are written where the descriptor says; the first failure ends the descriptor. -/
def getRespIn (k : Nat) (h : MsgHdr) (data : List Byte) (s : State) : State :=
  match takeReq (getPort s k) h.mtag true with
  | none => s
  | some (r, _) =>
    if 5 < r.part ∨ h.status ≠ 0 then getDone k h.mtag h.status s
    else
      let w := localJob k r.part r.space r.addr (data.take r.len) s
      match w.2 with
      | .inl code => getDone k h.mtag code w.1
      | .inr j => respStep k h j w.1

/-- GETRESP (R347). -/
def execGetresp (port : Nat) (s : State) : Host.Outcome State Fault Refusal := live s (serveVc1 port mtGetResp (respStep port) (getRespIn port) s)

/-- ANSWER (R347, R356). -/
def linkAnswerIn (k : Nat) (h : MsgHdr) (s : State) : State :=
  match takeReq (getPort s k) h.mtag false with
  | none => s
  | some (r, rest) =>
    let s1 := updPort s k fun p => { p with reqs := rest }
    pumpChains k (if r.part < 6 ∧ h.status ≠ 0 then chainError k r.part h.status s1 else s1)

/-- LINK_ANSWER (R347). -/
def execLinkAnswer (port : Nat) (s : State) : Host.Outcome State Fault Refusal :=
  live s (if serves s port then withMsg port 0 (fun h => h.type == mtAnswer) (fun _ h _ s => linkAnswerIn port h s) s else s)

/-- LINK_BARRIER (R355): kept until a chain's BARRIER of that identifier matches it. -/
def execLinkBarrier (port : Nat) (s : State) : Host.Outcome State Fault Refusal :=
  live s (if serves s port then
    withMsg port 0 (fun h => h.type == mtBarrier) (fun _ h _ s =>
      updPort s port fun p => { p with barriers := p.barriers ++ [(h.addr % 65536, h.dpart)] }) s
  else s)

/-! ### Time-base sync (R357, R465) -/

/-- TIMESYNC (R357), its first unit having arrived at time base `now`: the offset and delay of the exchange that its echo completes, and the
steering of R465. -/
def timesyncIn (k now : Nat) (data : List Byte) (s : State) : State :=
  let t3 := fieldAt data 0 8
  let t1 := fieldAt data 8 8
  let t2 := fieldAt data 16 8
  let fresh := (t1 != 0 || t2 != 0) && decide (s.dev.stepAt ≤ t1) && decide (t1 ≤ now)
  steer <| updPort s k fun p =>
    let p1 := { p with lastT1 := t3, lastT4 := now, haveSync := true }
    if fresh then
      { p1 with
        offset := some ((((t2 : Int) - t1) - ((now : Int) - t3)) / 2), offAt := s.dev.clock
        delay := (((t2 : Int) - t1) + ((now : Int) - t3)) / 2 }
    else p1

/-- TIMESYNC (R465). -/
def execTimesync (port : Nat) (s : State) : Host.Outcome State Fault Refusal :=
  live s (if serves s port then withMsg port 0 (fun h => h.type == mtTimesync) (fun m _ data s => timesyncIn port m.arrived data s) s else s)

/-- TIMESYNC_SEND (R357): with zeros for the echo where nothing has been received; T1 is set as the first unit leaves (`stamped`). -/
def timesyncOut (k : Nat) (s : State) : State :=
  let p := getPort s k
  if p.st = .active then
    sendMsg k { type := mtTimesync, plen := 2 }
      (leBytes 8 s.dev.time ++ leBytes 8 (if p.haveSync then p.lastT1 else 0) ++ leBytes 8 (if p.haveSync then p.lastT4 else 0) ++ leBytes 8 0) s
  else s

/-- TIMESYNC_SEND (R357). -/
def execTimesyncSend (port : Nat) (s : State) : Host.Outcome State Fault Refusal := live s (timesyncOut port s)

end Sys2Proof.Machine
end

