-- ==== Sys2Proof/Machine/LinkTrain.lean ====
section
/-! DEFINITION. Training (R334 to R337), retraining (R336, R340), key setup (R348, R427) and DEV_COMMIT (R412). -/

namespace Sys2Proof.Machine

/-! ### Training (R337) -/

/-- Whether a port leaves DISABLED where DEV_COMMIT names it (R338): it is fitted, and its die has passed its self-test (R409). -/
def portFit (s : State) (k : Nat) : Bool := decide (k < s.ports) && decide (k < 6) && !s.dev.deadPortDies.contains (k / 2)

/-- Whether a rail of a port's die has faulted (R406). -/
def portUnpowered (s : State) (k : Nat) : Bool :=
  s.dev.failedRails.any fun
    | .vio n => n == k / 2 + 1
    | .serdes d _ => d == k / 2
    | _ => false

/-- Training begins at step 1 (R337), with no lane map in force; not without the die's rails (R406). -/
def trainStart (k : Nat) (s : State) : State :=
  let p := getPort s k
  if p.st = .down ∧ p.named ∧ portFit s k ∧ !portUnpowered s k then updPort s k fun p => { p with st := .training, step := 1, width := 3 } else s

/-- LINK_TRAINING_START (R337). -/
def execLinkTrainingStart (port : Nat) (s : State) : Host.Outcome State Fault Refusal := live s (trainStart port s)

/-- TRAINING_FRAME_LOCK (R337, step 1). -/
def execTrainingFrameLock (port : Nat) (s : State) : Host.Outcome State Fault Refusal :=
  live s (if (getPort s port).step = 1 then updPort s port fun p => { p with step := 2 } else s)

/-- EQUALISER_ADAPTATION_COMPLETE (R337, step 2): the readiness test runs in TESTING. -/
def execEqualiserAdaptationComplete (port : Nat) (s : State) : Host.Outcome State Fault Refusal :=
  live s (if (getPort s port).step = 2 then updPort s port fun p => { p with st := .testing, step := 3 } else s)

/-- READINESS_TEST_COMPLETE (R334, R335): the test results of both directions' lanes, the transmit ones as the neighbour gives them (R337, step 4),
fix the lane maps and the width, or the port enters DOWN with reason WIDTH. -/
def readiness (k : Nat) (tx rx : List LaneTest) (s : State) : State :=
  if (getPort s k).step = 3 then
    let s1 := updPort s k (countTests rx)
    match widthFor (readyMask tx) (readyMask rx) with
    | none => portDown k 2 s1
    | some (w, code) => updPort s1 k fun p => setLanes w code (readyMask tx) (readyMask rx) { p with st := .training, step := 4 }
  else s

/-- READINESS_TEST_COMPLETE (R335). -/
def execReadinessTestComplete (port : Nat) (tx rx : List LaneTest) (s : State) : Host.Outcome State Fault Refusal :=
  live s (readiness port tx rx s)

/-- The payload of HELLO (R348): serial number, port index, nonce, in whole units. -/
def helloPayload (s : State) (k nonce : Nat) : List Byte := bytesAt (serialBytes s ++ leBytes 1 k ++ leBytes 32 nonce) 0 48

/-- A CONTROL message sent (R346, R348), its payload padded to whole units. -/
def sendControl (k sub : Nat) (data : List Byte) (s : State) : State :=
  let n := ceilDiv data.length 16
  sendMsg k { type := mtControl, plen := n, csub := sub } (bytesAt data 0 (16 * n)) s

/-- LANE_ALIGNMENT_COMPLETE (R332, R337 steps 5 to 7): where the lanes' markers align them, the link layer starts, and the port sends HELLO with a
fresh nonce (R348). -/
def alignDone (k : Nat) (marks : List (Nat × Nat)) (s : State) : State :=
  if (getPort s k).step = 4 ∧ aligned (getPort s k) marks then
    let x := drawFree s
    let hello := helloPayload s k (Config.fresh x.1 % 2 ^ 256)
    sendControl k 1 hello (updPort x.2 k fun p => { startLanes p with st := .securing, step := 7, helloOwn := hello })
  else s

/-- LANE_ALIGNMENT_COMPLETE (R332). -/
def execLaneAlignmentComplete (x : MarkerSet) (s : State) : Host.Outcome State Fault Refusal := live s (alignDone x.port x.marks s)

/-- LINK_TRAIN_STEP_TIMEOUT (R337, R340): the step in progress, or a retrain, exceeds its bound. -/
def execLinkTrainStepTimeout (port : Nat) (s : State) : Host.Outcome State Fault Refusal :=
  live s (if 0 < (getPort s port).step ∨ (getPort s port).st = .retrain then portDown port 1 s else s)

/-! ### Key setup (R348, R427) -/

/-- A key-setup message handled at the step it belongs to (R348): any other order fails the check. -/
def withControl (k sub step : Nat) (f : List Byte → State → State) (s : State) : State :=
  if (getPort s k).st = .securing ∨ serves s k then
    withMsg k 0 (fun h => h.type == mtControl && h.csub == sub) (fun _ _ data s =>
      if (getPort s k).st = .securing ∧ (getPort s k).hs = step then f data s else portDown k 3 s) s
  else s

/-- The fragments of a chain (R348): at most 512 bytes each, the last of them shorter. -/
def certFrags (chain : List Byte) : List (List Byte) :=
  let fs := groupsOf 512 chain
  if chain.length % 512 = 0 ∨ 496 < chain.length % 512 then fs ++ [[]] else fs

/-- The payloads of CERT messages joined, each padded to whole units. -/
def certPadded (chain : List Byte) : List Byte := bytesAt chain 0 (16 * ceilDiv chain.length 16)

/-- HELLO (R348): the neighbour's serial number, port and nonce; the chain is sent, unless the part's own is invalid (R426). -/
def helloIn (k : Nat) (data : List Byte) (s : State) : State :=
  let peer := fieldAt data 0 8
  let s1 := updPort s k fun p => { p with hs := 1, helloPeer := data, peer := peer, pport := fieldAt data 8 1 % 8 }
  if peer = s.serial then portDown k 4 s1
  else if !s.dev.chainValid then portDown k 3 s1
  else forEach (certFrags (chainBytes s1)) (fun s f => sendControl k 2 f s) s1

/-- HELLO (R348). -/
def execHello (port : Nat) (s : State) : Host.Outcome State Fault Refusal := live s (withControl port 1 0 (helloIn port) s)

/-- The digest that a KEYX signs (R348): every CONTROL payload that its sender has sent and received, with the key. -/
def keyxDigest (helloA helloB certA certB key : List Byte) : List Byte := sha384 (helloA ++ helloB ++ certA ++ certB ++ key)

/-- The own KEYX, once the neighbour's chain is whole and checked (R348, R427). -/
def keyxOut (k : Nat) (s : State) : State :=
  let p := getPort s k
  if !peerChainOk p.certPeer p.peer then portDown k 3 s
  else
    let x := drawFree s
    let eph := Config.fresh x.1
    let key := bytesAt (ecPublic eph) 0 96
    let sig := bytesAt (identitySign s (keyxDigest p.helloOwn p.helloPeer (certPadded (chainBytes s)) p.certPeer key)) 0 96
    sendControl k 3 (key ++ sig) (updPort x.2 k fun p => { p with hs := 2, eph := eph })

/-- CERT (R348): fragments join, and one of fewer than 512 bytes is the last. -/
def certIn (k : Nat) (data : List Byte) (s : State) : State :=
  let s1 := updPort s k fun p => { p with certPeer := p.certPeer ++ data }
  if data.length < 512 then keyxOut k s1 else s1

/-- CERT (R348). -/
def execCert (port : Nat) (s : State) : Host.Outcome State Fault Refusal := live s (withControl port 2 1 (certIn port) s)

/-- The 64 bytes of the two directions' keys (R348). -/
def linkKeys (s : State) (p : Port) (key : List Byte) : List Byte :=
  let low := decide (s.serial < p.peer)
  let nOwn := bytesAt p.helloOwn 9 32
  let nPeer := bytesAt p.helloPeer 9 32
  let sOwn := serialBytes s
  let sPeer := leBytes 8 p.peer
  bytesAt (hkdf (bytesAt (ecdh p.eph key) 0 48) (if low then nOwn ++ nPeer else nPeer ++ nOwn)
    (ascii "RLINK1" ++ (if low then sOwn ++ sPeer else sPeer ++ sOwn)) 64) 0 64

/-- KEYX (R348, R427): the signature is checked with the chain's key, the keys are derived, and FINISH follows as the first tagged message. -/
def keyxIn (k : Nat) (data : List Byte) (s : State) : State :=
  let p := getPort s k
  let key := bytesAt data 0 96
  let digest := keyxDigest p.helloPeer p.helloOwn p.certPeer (certPadded (chainBytes s)) key
  if data.length ≠ 192 ∨ !onCurve key ∨ !ecdsaOk (chainKey p.certPeer) digest (bytesAt data 96 96) then portDown k 3 s
  else
    let ks := linkKeys s p key
    let low := decide (s.serial < p.peer)
    sendControl k 4 [] <| updPort s k fun p => { p with
      hs := 3, eph := 0, keyed := true, finSent := true, txCount := 0
      keyTx := bytesAt ks (if low then 0 else 32) 32, keyRx := bytesAt ks (if low then 32 else 0) 32 }

/-- KEYX (R348). -/
def execKeyx (port : Nat) (s : State) : Host.Outcome State Fault Refusal := live s (withControl port 3 2 (keyxIn port) s)

/-- FINISH (R348, R337 step 8): the port enters ACTIVE. -/
def finishIn (k : Nat) (data : List Byte) (s : State) : State :=
  if !data.isEmpty then portDown k 3 s
  else settleCommit (linkEvent k 0 0xFF 0 0 (updPort s k fun p =>
    { p with st := .active, step := 0, hs := 4, firstDone := true, winCorr := [], winUncorr := [] }))

/-- FINISH (R348). -/
def execFinish (port : Nat) (s : State) : Host.Outcome State Fault Refusal := live s (withControl port 4 3 (finishIn port) s)

/-! ### Errors, retraining and loss (R336, R339, R340) -/

/-- LANE_ERROR_WINDOW (R336): a spare that fails is dropped, and a logical lane that fails makes the port ask for a retrain in its markers and enter
RETRAIN. -/
def laneWindow (k : Nat) (corr uncorr : List (Nat × Nat)) (s : State) : State :=
  if (getPort s k).st = .active then
    updPort s k fun p =>
      let p0 := windowCounts corr uncorr p
      let bad := (failedLanes p0).filter (natBit p0.rxReady)
      let hit := bad.any (natBit p0.rxmap)
      let ready := laneMask ((lanesOf p0.rxReady).filter (!bad.contains ·))
      { p0 with rxReady := ready, winCorr := [], winUncorr := [], retrainReq := p0.retrainReq || hit, st := if hit then .retrain else p0.st }
  else s

/-- LANE_ERROR_WINDOW (R336). -/
def execLaneErrorWindow (port : Nat) (corr uncorr : List (Nat × Nat)) (s : State) : Host.Outcome State Fault Refusal :=
  live s (laneWindow port corr uncorr s)

/-- RETRAIN (R332, R340): a lane marker of the neighbour with its RETRAIN bit stops data flits. -/
def retrainAsked (k lane mark : Nat) (s : State) : State :=
  let p := getPort s k
  if p.st = .active ∧ markerOk p lane mark ∧ natBit mark 46 then updPort s k fun p => { p with st := .retrain } else s

/-- RETRAIN (R340). -/
def execRetrain (x : MarkerRx) (s : State) : Host.Outcome State Fault Refusal := live s (retrainAsked x.port x.lane x.mark s)

/-- RETRAIN_COMPLETE (R340): of the lanes still ready, those that pass their tests again make the new maps and width, once their markers align
them; both directions then replay from ACK + 1. Below 32 lanes the retrain fails. -/
def retrainDone (k : Nat) (tx rx : List LaneTest) (marks : List (Nat × Nat)) (s : State) : State :=
  let p := getPort s k
  if p.st = .retrain then
    let t := stillReady p.txReady tx
    let r := stillReady p.rxReady rx
    match widthFor t r with
    | none => portDown k 2 (updPort s k (countTests rx))
    | some (w, code) =>
      let p1 := setLanes w code t r (countTests rx p)
      if !mapTested p1.txmap tx || !mapTested p1.rxmap rx || !aligned p1 marks then s else
      let s1 := updPort s k fun _ => { startLanes p1 with st := .active, retrains := p1.retrains + 1 }
      let s2 := replay k (linkEvent k 0 0xFF 0 0 s1)
      steer (pumpChains k (updPort s2 k (pumpPort s2.dev.time k)))
  else s

/-- RETRAIN_COMPLETE (R340). -/
def execRetrainComplete (port : Nat) (tx : List LaneTest) (rx : RxFound) (s : State) : Host.Outcome State Fault Refusal :=
  live s (retrainDone port tx rx.tests rx.marks s)

/-- LANE_MARKER_LOSS (R339, R358): the markers of every lane have been lost for more than 10 µs, with reason 7; or the neighbour's package has been
reset, with reason 8. -/
def execLaneMarkerLoss (x : MarkerLoss) (s : State) : Host.Outcome State Fault Refusal :=
  live s (if (getPort s x.port).st = .securing ∨ (getPort s x.port).st = .active ∨ (getPort s x.port).st = .retrain then portDown x.port (if x.reset then 8 else 7) s else s)

/-! ### DEV_COMMIT (R412) -/

/-- The references of DEV_COMMIT (R312): a bit of an unfitted port names nothing. -/
def commitRefs (c : Cmd) (s : State) : Option (Nat × Nat) := firstRef [(32, decide (64 ≤ c.p 0 1), 2), (32, decide (2 ^ min 6 s.ports ≤ c.p 0 1), 5)]

/-- A port that DEV_COMMIT names (R338, R412): it waits in DOWN to train; where a rail of its die has faulted it has ended there, with reason 1 (R406). -/
def portNamed (s : State) (k : Nat) (p : Port) : Port :=
  { p with st := .down, named := true, firstDone := portUnpowered s k, width := 3, reason := if portUnpowered s k then 1 else p.reason }

/-- DEV_COMMIT (R412, R428): the named ports wait in DOWN to train; a port of a die that failed its self-test stays DISABLED (R409). -/
def commitRun (a : Nat) (c : Cmd) (s : State) : State :=
  let m := c.p 0 1
  let s1 := updDev (measureCmd c (startCmd a m s)) fun d => { d with committing := true }
  settleCommit <| forEach ((List.range 6).filter (natBit m)) (fun s k =>
    if portFit s k then updPort s k (portNamed s k) else s) s1

/-- DEV_COMMIT (R412). -/
def execDevCommit (ap : Nat) (s : State) : Host.Outcome State Fault Refusal :=
  live s (cmdRun ap 0x0032 commitRefs (devIn [.config]) (commitRun ap) s)

end Sys2Proof.Machine
end

