-- ==== Sys2Proof/Machine/Salvage.lean ====
section
/-! DEFINITION. Entry to SALVAGE (R418 to R420), and the stop of clusters by region, site or stack (R372, R392, R406). -/

namespace Sys2Proof.Machine

/-- A partition's commands that wait for what SALVAGE prevents end as ABORTED: a cluster's UNIT_RESET and PART_DRAIN. -/
def abortWaiting (q : Nat) (s : State) : State :=
  forEach (partAps s q) (fun s a =>
    match (getAp s a).cur with
    | some c => if c.started ∧ (c.opcode = 0x47 ∨ c.opcode = 0x45) then finish a stAborted (errorResult fcResetAbort 0 0) s else s
    | none => s) (updPart s q fun p => { p with drainAp := none })

/-- The work of a cluster ends as on entry to SALVAGE (R419): streams and sequences aborted, the DMA engine stopped. -/
def cluAbort (dc : Nat) (s : State) : State :=
  sprAbort dc (fun _ => true) (dmaHalt dc (forEach (List.range 4) (fun s n => seqAbort dc n s) s))

/-- A cluster off (R366): one already stopped or off keeps its state, and no turn-on is due. -/
def cluDown (dc : Nat) (s : State) : State :=
  let p := (getClu s dc).pwr
  if p.st = .on ∨ p.st = .turningOn then updClu (cluOff dc .off s) dc fun k => { k with pwr := { k.pwr with inReset := false } }
  else updClu s dc fun k => { k with pwr := { k.pwr with due := false, waitLoad := false, inReset := false, resetOff := false } }

/-- A partition enters SALVAGE (R418 to R420). DESIGN CHOICE: its salvage chains start within this event, whatever bank a spring step holds (R225). -/
def enterSalvage (q cause : Nat) (s : State) : State :=
  let st := (getPart s q).st
  if 6 ≤ q ∨ st = .none ∨ st = .salvage then s else
  let s1 := setPart q .salvage cause (abortWaiting q s)
  let s2 := forEach (partClus s1 q) (fun s dc => cluDown dc (cluAbort dc s)) s1
  { startLinks q true (haltLinks q s2) with blocked := s.blocked }

/-- Clusters stopped in whatever state they are (R372): their clocks stop and their header switches open; one that is off stays off. -/
def stopClusters (dcs : List Nat) (s : State) : State :=
  forEach dcs (fun s dc =>
    let p := (getClu s dc).pwr
    if p.st = .on ∨ p.st = .turningOn then
      updClu (cluOff dc .stopped (cluAbort dc s)) dc fun k => { k with pwr := { k.pwr with inReset := false } }
    else cluDown dc s) s

/-- The partition of a stack, if any, enters SALVAGE. -/
def salvageStack (k cause : Nat) (s : State) : State :=
  match (getStk s k).part with
  | some q => enterSalvage q cause s
  | none => s

/-- A region stops (R372): no later boot takes the fast path before a full one (R408). -/
def stopRegion (d r : Nat) (s : State) : State :=
  let s1 := updRgn (updDev s fun d => { d with noFast := true }) d r fun x => { x with ocs := 2, change := none }
  warnSevere 1 0x06 d r 0xFF (salvageStack d caOvercurrent (stopClusters (rgnDcs s1 d r) s1))

end Sys2Proof.Machine
end

