-- ==== Sys2Proof/Machine/PowerCmds.lean ====
section
/-! DEFINITION. Power delivery: operating points (R362, R363), the cap (R375 to R380), current and droop (R370 to R373), cluster switching
(R365 to R369), ageing (R381) and regulator faults (R406). -/

namespace Sys2Proof.Machine

/-- The die and the region of a region number die × 4 + region. -/
def rgnDie (i : Nat) : Nat := i / 4
def rgnNo (i : Nat) : Nat := i % 4

/-- The AVSBus bus and rail selects of a rail (R457). -/
def railSelects : Rail → Nat × List Nat
  | .vcore d r => (d, [r])
  | .vtarn k => (k, [4])
  | .vmem k => (k, [5])
  | .vpp k => (k, [6])
  | .vio k => (6, [k])
  | .serdes d n => (6, [4 + 2 * d + n % 2])

/-! ### Operating points (R362, R363) -/

/-- V(k) of a region in mV (R363): fused voltage and trim, clamped to the range from the fused floor to 850 mV. -/
def pointMv (i : Nat) (x : Rgn) (k : Nat) : Nat :=
  let v := (Config.vfMv i k : Int) + 5 * x.trim
  min 850 (max (Config.vminMv i k) v.toNat)

/-- The setpoints written on the way from one voltage to another, in steps of at most 10 mV (R362). -/
def voltSteps (old new : Nat) : List Nat :=
  let d := if old < new then new - old else old - new
  (List.range (ceilDiv d 10)).map fun i => if old < new then min new (old + 10 * (i + 1)) else max new (old - 10 * (i + 1))

/-- The setpoints written on AVSBus (R457). -/
def avsWrite (bus sel : Nat) (mvs : List Nat) (s : State) : State :=
  { s with side := { s.side with avsOut := s.side.avsOut ++ mvs.map fun v => (bus, sel, v) } }

/-- The point that a region may take (R371, R381): not above the point held after an over-current, nor above OP1 once OP0 is lost. -/
def allowedPoint (x : Rgn) (k : Nat) : Nat :=
  let lo := if x.topLost then 1 else 0
  min 6 (max k (max lo (if 0 < x.capTicks then x.capOp else 0)))

/-- A region told to run at a point (R362): a fall takes the new frequency at once; a rise waits for its voltage. A point told while a change is
pending takes its place. -/
def pointTo (i k : Nat) (s : State) : State :=
  let d := rgnDie i
  let r := rgnNo i
  let x := getRgn s d r
  let k' := allowedPoint x k
  if x.ocs = 2 || x.failed || (x.change.map (·.point)).getD x.op == k' then s
  else updRgn s d r fun x => { x with change := some ⟨k', pointMv i x k'⟩, op := max x.op k' }

/-- The writes of a change (R362), and the setpoint that they leave: a step that is not acknowledged is written three times in all. -/
def changeWrites (old new : Nat) (failed : Option Nat) : List Nat × Nat × Bool :=
  let vs := voltSteps old new
  match failed with
  | none => (vs, new, true)
  | some j => if h : j < vs.length then (vs.take (j + 1) ++ [vs[j], vs[j]], (old :: vs).getD j old, false) else (vs, new, true)

/-- OP_VOLTAGE_SETTLED (R362): the setpoint has been written and the sense has reached it; a step whose two retries fail ends the change. -/
def voltSettled (i : Nat) (failed : Option Nat) (s : State) : State :=
  let d := rgnDie i
  let r := rgnNo i
  let x := getRgn s d r
  match x.change with
  | none => s
  | some c =>
    let w := changeWrites x.vset c.vset failed
    let s1 := avsWrite d r w.1 (updRgn s d r fun x => { x with change := none, op := if w.2.2 then c.point else x.op, vset := w.2.1 })
    if w.2.2 then s1 else warn 1 0x07 d r d s1

/-- OP_VOLTAGE_SETTLED (R362). -/
def execOpVoltageSettled (rgn : Nat) (failed : Option Nat) (s : State) : Host.Outcome State Fault Refusal := live s (voltSettled rgn failed s)

/-! ### Estimates (R378) -/

/-- The energy of counted events for a class, over the clusters and kinds that `p` holds, in pJ. -/
def actEnergy (m : SMap Nat) (s : State) (i : Nat) (p : Nat → Nat → Bool) : Nat :=
  ((m.filter fun e => p (e.1 / 16) (e.1 % 16)).map fun e => e.2 * Config.energyCoef i (e.1 % 16) (getClass s.power i).refits).foldl (· + ·) 0

/-- A sum over the numbers below `n`. -/
def sumTo (n : Nat) (f : Nat → Nat) : Nat := ((List.range n).map f).foldl (· + ·) 0

/-- The accepted value of a layer of a site. -/
def acceptedAt (s : State) (k i j : Nat) : Int := (smapGet {} (getSite s k i).layers j).accepted

/-- The leakage term of a cluster. -/
def cluLeak (s : State) (dc : Nat) : Nat :=
  Config.leakage 2 dc (getRgn s (dcDie dc) (dcRgn s dc)).vset (acceptedAt s (dcDie dc) (dcSite s dc) 0)
/-- The draw of the warming load on a cluster of a stack that it keeps warm (R400). -/
def warmEst (s : State) (dc : Nat) : Nat :=
  if (getStk s (dcDie dc)).warm ∧ (getClu s dc).pwr.st = .on then Config.warmDraw dc (getRgn s (dcDie dc) (dcRgn s dc)).op else 0
/-- The leakage term of a memory layer of a site, whose rails' voltages are fixed. -/
def layerLeak (s : State) (k i j : Nat) : Nat := Config.leakage 1 ((k * 48 + i) * 8 + j) 750 (acceptedAt s k i j)
/-- The leakage term of a region. -/
def rgnLeak (s : State) (i : Nat) : Nat := ((rgnDcs s (rgnDie i) (rgnNo i)).map (cluLeak s)).foldl (· + ·) 0
/-- The leakage term of a stack's memory rails. -/
def memLeak (s : State) (k : Nat) : Nat := sumTo 48 fun i => sumTo (s.mdies + 1) fun j => layerLeak s k i (j + 1)
/-- The leakage term of a port, whose die has no sensor. -/
def portLeak (k : Nat) : Nat := Config.leakage 0 k 750 0

/-- The estimate of a region, in µW: the events of a microsecond, the warming load and the leakage term. -/
def rgnEst (s : State) (i : Nat) : Nat :=
  actEnergy s.act s 2 (fun u _ => decide (u / 256 = rgnDie i) && decide (u % 256 < 192) && dcRgn s u == rgnNo i)
    + ((rgnDcs s (rgnDie i) (rgnNo i)).map (warmEst s)).foldl (· + ·) 0 + rgnLeak s i
/-- The estimate of a stack's memory rails, in µW. -/
def memEst (s : State) (k : Nat) : Nat := actEnergy s.act s 1 (fun u _ => decide (u / 256 = k)) + memLeak s k
/-- The flits of a port since the last tick. -/
def newFlits (p : Port) : Nat := (p.txFlits + p.rxFlits - p.estFlits).toNat
/-- The estimate of a port, in µW. -/
def portEst (s : State) (k : Nat) : Nat :=
  newFlits (getPort s k) * Config.energyCoef 0 akFlit s.power.links.refits + portLeak k

/-- The estimate of a class in W (R378). -/
def classEst (s : State) : Nat → Nat
  | 0 => sumTo s.ports (portEst s) / 1000000
  | 1 => sumTo 6 (memEst s) / 1000000
  | _ => sumTo 24 (rgnEst s) / 1000000

/-- The leakage term of a class in W. -/
def classLeak (s : State) : Nat → Nat
  | 0 => sumTo s.ports portLeak / 1000000
  | 1 => sumTo 6 (memLeak s) / 1000000
  | _ => sumTo 24 (rgnLeak s) / 1000000

/-- The estimate of a region at a point, in µW. -/
def rgnAt (s : State) (i k : Nat) : Nat := Config.drawAt i (getRgn s (rgnDie i) (rgnNo i)).op k (rgnEst s i)

/-- The highest point that a region may take. -/
def topPoint (s : State) (i : Nat) : Nat := allowedPoint (getRgn s (rgnDie i) (rgnNo i)) 0

/-! ### The cap (R375 to R380) -/

/-- The governing draw of a class with an estimate (R380). -/
def governing (c : PClass) (est : Nat) : Nat :=
  if c.implausible then est * 115 / 100 else if c.mismatch then max est c.meas else est

/-- The grants of R376 in mW, by class: floors first, then the rest in priority order. -/
def grants (p : Power) (order : List Nat) (demand : Nat → Nat) (avail : Nat) : List Nat :=
  let cls := getClass p
  let g0 := [0, 1, 2].map fun i => min (100000 * (cls i).floor) (demand i)
  let rest := avail - (g0.getD 0 0 + g0.getD 1 0 + g0.getD 2 0)
  (order.foldl (fun (acc : List Nat × Nat) i =>
    let g := acc.1.getD i 0
    let add := min (min (demand i) (100000 * (cls i).ceil) - g) acc.2
    (acc.1.set i (g + add), acc.2 - add)) (g0, rest)).1

/-- The memory class withholds spring permits while it draws more than its grant (R215, R377). -/
def withholdPermits (s : State) : State :=
  let hold := decide (s.power.memory.grant < 1000 * s.power.memory.gov)
  forEach (List.range 6) (fun s k => forEach (List.range s.mdies) (fun s d => updMDie s k d fun x => { x with withheld := hold }) s) s

/-- The part of a class's governing draw that falls to an estimate of its parts, both in W. -/
def govPart (c : PClass) (part : Nat) : Nat := if c.est = 0 then part else part * c.gov / c.est

/-- The governing draw of a stack's rails in W (R380, R395, R474). -/
def stackGov (s : State) (k : Nat) : Nat :=
  govPart s.power.compute (sumTo 4 (fun r => rgnEst s (4 * k + r)) / 1000000) + govPart s.power.memory (memEst s k / 1000000)

/-- A microsecond of a stack: its energy counter (R474) and its window of R395. -/
def stackTick (k : Nat) (s : State) : State :=
  let w := stackGov s k
  updStk s k fun y => { y with
    energy := inc64 y.energy w, winPower := y.winPower + w, winTicks := y.winTicks + 1
    winBad := y.winBad || s.side.coolBad
    winLow := if y.winTicks = 0 then w else min y.winLow w, winHigh := max y.winHigh w }

/-- The energy counters integrate a microsecond (R474). -/
def addEnergy (unclassed : Nat) (s : State) : State :=
  let p := s.power
  let total := p.links.gov + p.memory.gov + p.compute.gov + unclassed
  forEach (List.range 6) (fun s k => stackTick k s) <|
    updPower s fun p => { p with
      ePackage := inc64 p.ePackage total, eLinks := inc64 p.eLinks p.links.gov, eMemory := inc64 p.eMemory p.memory.gov
      eCompute := inc64 p.eCompute p.compute.gov, eUnclassed := inc64 p.eUnclassed unclassed }

/-- The package still exceeds CAP with every region at OP6 (R377): once, and then at most once per second. -/
def capUnmet (unclassed : Nat) (s : State) : State :=
  let p := s.power
  let total := p.links.gov + p.memory.gov + p.compute.gov + unclassed
  let low := (List.range 24).all fun i => (getRgn s (rgnDie i) (rgnNo i)).op == 6
  if 100 * p.cap < total ∧ low ∧ (!p.capUnmet ∨ 1000000 ≤ p.capTicks) then
    warn 1 0x04 0xFF 0xFF 0xFF (updPower s fun p => { p with capUnmet := true, capTicks := 0 })
  else s

/-- The hold of a region's point after an over-current runs for 100 ms (R371). -/
def holdTick (s : State) : State :=
  forEach (List.range 24) (fun s i => updRgn s (rgnDie i) (rgnNo i) fun x => { x with capTicks := x.capTicks - 1 }) s

/-- The demand of a class in mW (R376): its governing draw at its highest setting. -/
def classDemand (s : State) (i : Nat) : Nat :=
  let c := getClass s.power i
  1000 * governing c (match i with
    | 2 => sumTo 24 (fun r => rgnAt s r (topPoint s r)) / 1000000
    | _ => Config.drawTop i c.est)

/-- A region's share of the compute grant in µW (R377): in proportion to its demand. -/
def rgnShare (s : State) (i : Nat) : Nat :=
  let all := sumTo 24 fun r => rgnAt s r (topPoint s r)
  1000 * s.power.compute.grant * rgnAt s i (topPoint s i) / all

/-- The highest point of a region whose estimated draw is within its share (R377), else OP6. -/
def rgnPoint (s : State) (i : Nat) : Nat := ((List.range 7).find? fun k => decide (rgnAt s i k ≤ rgnShare s i)).getD 6

/-- The classes' estimates and governing draws of a microsecond (R378, R380). -/
def estimate (unclassed : Nat) (s : State) : State :=
  let cls := fun (i : Nat) (c : PClass) => { c with est := classEst s i, leak := classLeak s i, gov := governing c (classEst s i) }
  updPower s fun p => { p with links := cls 0 p.links, memory := cls 1 p.memory, compute := cls 2 p.compute, unclassed := unclassed }

/-- What the links and memory classes draw beyond their grants, in mW. -/
def beyondGrants (p : Power) : Nat := (1000 * p.links.gov - p.links.grant) + (1000 * p.memory.gov - p.memory.grant)

/-- The grants of a microsecond (R376); of what the links and memory draw beyond theirs, the part that they cannot bring within them by their own means
is taken from the compute grant (R377). -/
def grantAll (x : CapSample) (s : State) : State :=
  let p := s.power
  let avail := min (100000 * p.cap) (p.prevTotal + 10 * p.ramp) - 1000 * x.unclassed
  let g := grants p (classOrder p.order) (classDemand s) avail
  updPower s fun p =>
    let links := { p.links with grant := g.getD 0 0 }
    let memory := { p.memory with grant := g.getD 1 0 }
    { p with
    links := links
    memory := memory
    compute := { p.compute with grant := g.getD 2 0 - min (1000 * x.excess) (beyondGrants { p with links := links, memory := memory }) }
    prevTotal := g.getD 0 0 + g.getD 1 0 + g.getD 2 0 + 1000 * x.unclassed
    capTicks := p.capTicks + 1 }

/-- The event counts begin afresh (R378). -/
def clearCounts (s : State) : State :=
  forEach (List.range s.ports) (fun s k => updPort s k fun p => { p with estFlits := p.txFlits + p.rxFlits }) { s with act := [] }

/-- CAP_CONTROL_TICK (R376 to R378): the estimates, the grants, and then the means of each class; every region takes the point that its share
allows. -/
def capTick (x : CapSample) (s : State) : State :=
  let s1 := holdTick (addEnergy x.unclassed (grantAll x (estimate x.unclassed s)))
  let points := (List.range 24).map fun i => (i, rgnPoint s1 i)
  capUnmet x.unclassed (withholdPermits (clearCounts (forEach points (fun s e => pointTo e.1 e.2 s) s1)))

/-- CAP_CONTROL_TICK (R376). -/
def execCapControlTick (x : CapSample) (s : State) : Host.Outcome State Fault Refusal := live s (capTick x s)

/-- The stack or port I/O die that a rail of AVSBus feeds (R457), 0xFF for the lead I/O die. -/
def railUnit (bus sel : Nat) : Nat :=
  if bus < 6 then bus else if 1 ≤ sel ∧ sel ≤ 3 then sel - 1 else if 4 ≤ sel ∧ sel ≤ 9 then (sel - 4) / 2 else 0xFF

/-- Whether a rail of AVSBus has faulted since the package reset (R406). -/
def railFailed (s : State) (bus sel : Nat) : Bool :=
  s.dev.failedRails.any fun r => (railSelects r).1 == bus && (railSelects r).2.contains sel

/-- The rails of a class that are up (R375, R457), as bus and rail select. -/
def classRails (s : State) (i : Nat) : List (Nat × Nat) :=
  let n := s.ports / 2
  (match i with
    | 0 => (List.range n).flatMap fun d => [(6, d + 1), (6, 4 + 2 * d), (6, 5 + 2 * d)]
    | 1 => (List.range 6).flatMap fun k => [(k, 4), (k, 5), (k, 6)]
    | _ => (List.range 24).map fun r => (rgnDie r, rgnNo r)).filter fun e => !railFailed s e.1 e.2

/-- The setpoint of a rail in mV and its rating in 0.1 A (R359, R360). -/
def railSpec (s : State) (bus sel : Nat) : Nat × Nat :=
  if bus < 6 then
    match sel with
    | 4 => (750, 7000)
    | 5 => (1050, 5000)
    | 6 => (1800, 200)
    | r => ((getRgn s bus r).vset, 10000)
  else if sel < 4 then (750, 9000) else if sel % 2 = 0 then (900, 400) else (1200, 100)

/-- The reading of a rail in a window: one that is not there has failed. -/
def readingOf (xs : List RailReading) (e : Nat × Nat) : RailReading :=
  (xs.find? fun x => x.bus == e.1 && x.sel == e.2).getD ⟨e.1, e.2, 0, 0, true, false⟩

/-- Whether one rail makes a measurement implausible (R379). -/
def readingBad (s : State) (x : RailReading) : Bool :=
  let v := (railSpec s x.bus x.sel).1
  x.failed || x.fault || decide (10 * x.mv < 9 * v) || decide (11 * v < 10 * x.mv) || decide (x.amps < 0)
    || decide (15 * ((railSpec s x.bus x.sel).2 : Int) < 10 * x.amps)

/-- The measurement of a class in W (R378): sensed voltage times current, over its rails. -/
def classMeas (rs : List RailReading) : Nat := ((rs.map fun (x : RailReading) => (x.mv : Int) * x.amps).foldl (· + ·) 0).toNat / 10000

/-- One class at the end of a 100 µs window (R379, R380). The warning names the first rail that is out of order, or the class's first. -/
def measClass (i : Nat) (xs : List RailReading) (s : State) : State :=
  let rs := (classRails s i).map (readingOf xs)
  if rs.isEmpty then s else
  let c := getClass s.power i
  let w := classMeas rs
  let gap := if c.est < w then w - c.est else c.est - w
  let settle := fun (c : PClass) => { c with gov := governing c c.est }
  if rs.any (readingBad s) || decide (2 * w < c.leak) then
    let s1 := updPower s fun p => updClass p i fun c => settle { c with meas := w, implausible := true, okWin := 0, badWin := 0, recalWin := 0 }
    let x := (rs.find? (readingBad s)).getD (rs.headD (readingOf xs (0, 0)))
    if c.implausible then s1 else warn 1 0x02 (railUnit x.bus x.sel) x.sel x.bus s1
  else
    let ok := c.okWin + 1
    let c1 := { c with meas := w, okWin := if c.implausible then ok else 0, implausible := c.implausible && decide (ok < 100) }
    if c1.implausible then updPower s fun p => updClass p i fun _ => settle { c1 with badWin := 0, recalWin := 0 }
    else if c.mismatch then
      let n := if 10 * gap ≤ w then c.recalWin + 1 else 0
      let c2 := { c1 with refits := c1.refits + 1 }
      if 100 ≤ n then
        warn 1 0x03 0xFF i 0xFF (updPower s fun p => updClass p i fun _ => settle { c2 with mismatch := false, recalWin := 0, badWin := 0 })
      else updPower s fun p => updClass p i fun _ => settle { c2 with recalWin := n }
    else
      let n := if w < 5 * gap then c.badWin + 1 else 0
      if 100 ≤ n then
        warn 1 0x01 0xFF i 0xFF (updPower s fun p => updClass p i fun _ => settle { c1 with mismatch := true, badWin := 0, recalWin := 0 })
      else updPower s fun p => updClass p i fun _ => settle { c1 with badWin := n }

/-- The latest readings kept for TELEMETRY (R473). -/
def keepReadings (xs : List RailReading) (s : State) : State :=
  updPower s fun p => { p with rails := (xs.filter fun x => !x.failed && decide (x.bus < 7) && decide (x.sel < 10)).foldl (fun m x => smapInsert m (x.bus * 16 + x.sel) (x.mv, x.amps)) p.rails }

/-- The readings of a window checked for every class (R379, R380). -/
def measWindow (rails : List RailReading) (s : State) : State :=
  measClass 2 rails (measClass 1 rails (measClass 0 rails (keepReadings rails s)))

/-- POWER_MEASUREMENT_WINDOW (R378 to R380): the readings of every rail. -/
def execPowerMeasurementWindow (links memory compute : List RailReading) (s : State) : Host.Outcome State Fault Refusal :=
  live s (measWindow (links ++ memory ++ compute) s)

/-! ### Current (R370 to R372) -/

/-- CURRENT_MONITOR_SAMPLE (R371), in 0.1 A, every 100 ns. An over-current turns back a rise that still waits for its voltage. -/
def currentSample (i amps : Nat) (s : State) : State :=
  if 24 ≤ i then s else
  let d := rgnDie i
  let r := rgnNo i
  let x := getRgn s d r
  let s1 := updRgn s d r fun x => { x with
    amps := min amps 0xFFFF
    trip := if 11500 < amps then x.trip + 1 else 0
    hi := if 10500 < amps then min 51 (x.hi + 1) else 0
    lo := if amps ≤ 10000 then x.lo + 1 else 0 }
  let y := getRgn s1 d r
  if x.ocs = 2 || x.failed then s1
  else if 2 ≤ y.trip then stopRegion d r s1
  else if y.hi = 50 then
    pointTo i y.op <|
      warn 1 0x05 d r 0xFF (updRgn s1 d r fun x => { x with ocs := 1, ocEvt := x.ocEvt + 1, capOp := x.op, capTicks := 100000, lo := 0 })
  else if x.ocs = 1 ∧ 500 ≤ y.lo then updRgn s1 d r fun x => { x with ocs := 0 }
  else s1

/-- CURRENT_MONITOR_SAMPLE (R371). -/
def execCurrentMonitorSample (rgn amps : Nat) (s : State) : Host.Outcome State Fault Refusal := live s (currentSample rgn amps s)

/-! ### Droop (R373) -/

/-- The stretch level changed, and the action counted. -/
def droopTo (dc n : Nat) (s : State) : State :=
  updClu s dc fun k => { k with pwr := { k.pwr with droop := n, droopCount := k.pwr.droopCount + 1 } }

/-- DROOP_DETECT (R373): local VCORE lies `permille` below the setpoint. -/
def droopDetect (dc permille : Nat) (s : State) : State :=
  let p := (getClu s dc).pwr
  let n := if 80 ≤ permille then 2 else if 50 ≤ permille then 1 else 0
  if dcOk dc ∧ p.st = .on ∧ p.droop < n then droopTo dc n s else s

/-- DROOP_DETECT (R373). -/
def execDroopDetect (dc : Nat) (permille : Nat) (s : State) : Host.Outcome State Fault Refusal := live s (droopDetect dc permille s)

/-- DROOP_RECOVER (R373): one level lower. -/
def droopRecover (dc : Nat) (s : State) : State :=
  let p := (getClu s dc).pwr
  if p.st = .on ∧ 0 < p.droop then droopTo dc (p.droop - 1) s else s

/-- DROOP_RECOVER (R373). -/
def execDroopRecover (dc : Nat) (s : State) : Host.Outcome State Fault Refusal := live s (droopRecover dc s)

/-! ### Switching (R365 to R369) -/

/-- The state with a cluster's switching changed. -/
def updPwr (s : State) (dc : Nat) (f : CluPwr → CluPwr) : State := updClu s dc fun k => { k with pwr := f k.pwr }

/-- The clusters of a region that are turning on. -/
def turningOn (s : State) (d r : Nat) : List Nat := (rgnDcs s d r).filter fun dc => (getClu s dc).pwr.st == .turningOn

/-- A stage closes where the latest sample plus 24 A is at most 1,000 A; else the stretch of the region's other clusters takes a step (R369). -/
def closeStage (dc : Nat) (f : CluPwr → CluPwr) (s : State) : State :=
  let d := dcDie dc
  let r := dcRgn s dc
  if (getRgn s d r).amps + 240 ≤ 10000 then updPwr s dc fun p => { f p with stageHeld := false }
  else updRgn (updPwr s dc fun p => { p with stageHeld := true }) d r fun x => { x with turnOnStretch := min 3 (x.turnOnStretch + 1) }

/-- A cluster's clock starts (R365, R366): it is in the state of a cluster reset, and a UNIT_RESET that waits for it is answered; the last
cluster of a partition reset completes that reset (R416). -/
def clockStart (dc : Nat) (s : State) : State :=
  let s1 := updPwr (updClu (dropWalks dc s) dc cluRegs) dc fun p => { p with st := .on, doubled := false, inReset := false, droop := 0 }
  let s2 := forEach (apsWaiting s1 fun _ c => c.opcode == 0x47 && c.aux == dc) (fun s a => finish a stOk (mkResult []) s) (settleInvals s1)
  match dcPart s2 dc with
  | some q => resetDone q s2
  | none => s2

/-- CLUSTER_TURN_ON_STAGE (R365, R367 to R369). -/
def turnOnStage (dc : Nat) (s : State) : State :=
  let d := dcDie dc
  let r := dcRgn s dc
  let p := (getClu s dc).pwr
  if p.st = .turningOn then
    if p.stages < 4 then closeStage dc (fun p => { p with stages := p.stages + 1 }) s else clockStart dc s
  else if p.st = .off ∧ p.due ∧ !p.turningOff ∧ cluPowered s dc ∧ (getRgn s d r).ocs ≠ 2 ∧ (turningOn s d r).length < 4 then
    if 8500 < (getRgn s d r).amps ∧ !p.doubled then updPwr s dc fun p => { p with waitLoad := true }
    else closeStage dc (fun p => { p with st := .turningOn, stages := 1, due := false, waitLoad := false }) s
  else s

/-- CLUSTER_TURN_ON_STAGE (R369). -/
def execClusterTurnOnStage (dc : Nat) (s : State) : Host.Outcome State Fault Refusal := live s (turnOnStage dc s)

/-- TURN_ON_WAIT_EXPIRE (R368): the turn-on proceeds with doubled intervals. -/
def execTurnOnWaitExpire (dc : Nat) (s : State) : Host.Outcome State Fault Refusal :=
  live s (if (getClu s dc).pwr.waitLoad then updPwr s dc fun p => { p with waitLoad := false, doubled := true } else s)

/-- Whether a turn-on of a region is under way, or held at its first stage (R369). -/
def turnOnPending (s : State) (d r : Nat) : Bool :=
  (rgnDcs s d r).any fun dc => (getClu s dc).pwr.st == .turningOn || ((getClu s dc).pwr.st == .off && (getClu s dc).pwr.due && (getClu s dc).pwr.stageHeld)

/-- TURN_ON_STRETCH_RELEASE (R369): once the turn-on has completed. -/
def execTurnOnStretchRelease (rgn : Nat) (s : State) : Host.Outcome State Fault Refusal :=
  live s (if !turnOnPending s (rgnDie rgn) (rgnNo rgn) then updRgn s (rgnDie rgn) (rgnNo rgn) fun x => { x with turnOnStretch := 0 } else s)

/-- CLUSTER_TURN_OFF_STAGE (R365, R415): the next stage opens; after the last, the off period of a cluster reset begins. -/
def turnOffStage (dc : Nat) (s : State) : State :=
  let p := (getClu s dc).pwr
  if p.turningOff then
    let n := p.stages - 1
    updPwr s dc fun p => { p with stages := n, turningOff := n != 0, resetOff := n == 0 && p.inReset }
  else s

/-- CLUSTER_TURN_OFF_STAGE (R365). -/
def execClusterTurnOffStage (dc : Nat) (s : State) : Host.Outcome State Fault Refusal := live s (turnOffStage dc s)

/-! ### Ageing and regulators (R381, R406) -/

/-- AGEING_SLACK_LOW (R381): factor 1.25 until the next cold boot. -/
def slackLow (i : Nat) (s : State) : State :=
  let d := rgnDie i
  let r := rgnNo i
  if 24 ≤ i || (getRgn s d r).slack then s else warn 1 0x09 d r 0xFF (updRgn s d r fun x => { x with slack := true })

/-- AGEING_SLACK_LOW (R381). -/
def execAgeingSlackLow (rgn : Nat) (s : State) : Host.Outcome State Fault Refusal := live s (slackLow rgn s)

/-- The rail written to 0 V and the warning (R406). -/
def railOff (rail : Rail) (s : State) : State :=
  let b := (railSelects rail).1
  let sel := ((railSelects rail).2.head?).getD 0
  warnSevere 1 0x0A (railUnit b sel) sel b (avsWrite b sel [0] (updDev s fun d => { d with noFast := true }))

/-- The event-log ring moves when the VTARN that powers it faults (R470): it starts empty, and its first entry records the move. -/
def moveLog (s : State) : State :=
  match (List.range 6).find? fun k => !(getStk s k).tarnFailed with
  | none => s
  | some k =>
    if k = s.dev.logStack then s
    else putLog 0x0109 0 0xFF (mkResult [(0, 1, 4), (2, 2, Config.ringMoved), (4, 1, k)]) (updDev s fun d => { d with log := [], logStack := k })

/-- A memory rail of a stack faults (R406): its accesses are answered BUS_ERROR, and its clusters stop. -/
def memRailFault (k : Nat) (rail : Rail) (s : State) : State :=
  let s1 := moveLog (updStk s k fun x => { x with memFailed := true, tarnFailed := x.tarnFailed || rail == .vtarn k })
  railOff rail (salvageStack k caRegulator (stopClusters (dieDcs k) s1))

/-- A rail of a port I/O die faults (R406): its ports enter DOWN with reason 1; one that DEV_COMMIT has not named yet does so as it is named (R338). -/
def portRailFault (k : Nat) (rail : Rail) (s : State) : State :=
  railOff rail (forEach [2 * k, 2 * k + 1] (fun s p => if (getPort s p).st = .disabled then s else portDown p 1 s) s)

/-- Whether the package has a rail: the VIO and SerDes rails of port I/O dies that are not fitted are absent (R405, R457). -/
def railExists (s : State) : Rail → Bool
  | .vcore d r => decide (d < 6) && decide (r < 4)
  | .vtarn k => decide (k < 6)
  | .vmem k => decide (k < 6)
  | .vpp k => decide (k < 6)
  | .vio k => k == 0 || decide (2 * (k - 1) < s.ports)
  | .serdes d n => decide (2 * d < s.ports) && decide (n < 2)

/-! ### Rails (R405, R410) -/

/-- The rails of step 4 in their order, with their setpoints (R405, R457). -/
def railOrder (s : State) : List (Nat × Nat × Nat) :=
  let n := s.ports / 2
  (List.range 24).map (fun i => (i / 4, i % 4, Config.vfMv i 6)) ++ (List.range 6).map (fun k => (k, 4, 750))
    ++ (List.range 6).map (fun k => (k, 6, 1800)) ++ (List.range 6).map (fun k => (k, 5, 1050))
    ++ (List.range n).map (fun d => (6, d + 1, 750)) ++ (List.range n).flatMap (fun d => [(6, 4 + 2 * d, 900), (6, 5 + 2 * d, 1200)])

/-- The setpoints of VCORE as written. -/
def setVcore (f : Nat → Nat) (s : State) : State :=
  forEach (List.range 24) (fun s i => updRgn s (rgnDie i) (rgnNo i) fun x => { x with vset := f i }) s

/-- Rails brought up in order. -/
def railsUp (s : State) : State :=
  setVcore (fun i => Config.vfMv i 6) { s with side := { s.side with avsOut := s.side.avsOut ++ railOrder s } }

/-- Rails written to 0 V in the reverse order (R405, R410); one that has faulted is not written again (R406). -/
def railsDown (s : State) : State :=
  let rs := (railOrder s).reverse.filter fun r => !railFailed s r.1 r.2.1
  setVcore (fun _ => 0) { s with side := { s.side with avsOut := s.side.avsOut ++ rs.map fun r => (r.1, r.2.1, 0) } }

/-- A boot fails (R409, R410): SAFE-TALK, with the code, and a severe entry of the log (R471). -/
def bootFail (code : Nat) (s : State) : State :=
  warnSevere (Config.bootWarning code % 256) (Config.bootWarning code / 256) 0xFF 0xFF 0xFF <| railsDown (updDev s fun d => { d with st := .safeTalk, bootStep := 0, failCode := code, log := d.log.drop (d.log.length - 64) })

/-- REGULATOR_FAULT (R406): each rail faults once, and in SAFE-TALK only VIO rail 0 is up (R410). During a boot any rail's fault fails it. -/
def regulatorFault (rail : Rail) (s : State) : State :=
  if !railExists s rail || s.dev.failedRails.contains rail || (s.dev.st == .safeTalk && rail != .vio 0) then s
  else
    let s := updDev s fun d => { d with failedRails := d.failedRails ++ [rail] }
    if s.dev.st = .boot ∨ s.dev.st = .selftest then bootFail 3 (railOff rail s) else
    match rail with
    | .vcore d r =>
      let s1 := updRgn s d r fun x => { x with failed := true, change := none, vset := 0 }
      railOff rail (salvageStack d caRegulator (stopClusters (rgnDcs s1 d r) s1))
    | .vtarn k => memRailFault k rail s
    | .vmem k => memRailFault k rail s
    | .vpp k => memRailFault k rail s
    | .vio 0 => railOff rail (updDev (stopClusters (s.clusters.map (·.1)) s) fun d => { d with frozen := true })
    | .vio k => portRailFault (k - 1) rail s
    | .serdes d _ => portRailFault d rail s

/-- REGULATOR_FAULT (R406). -/
def execRegulatorFault (rail : Rail) (s : State) : Host.Outcome State Fault Refusal := live s (regulatorFault rail s)

end Sys2Proof.Machine
end

