-- ==== Sys2Proof/Machine/ThermalCmds.lean ====
section
/-! DEFINITION. Heat: sensors and the plausibility check (R385 to R389), throttling (R390 to R393), coolant and θ (R394 to R397), keep-warm
(R400), and the tray's SMBus commands (R394, R397, R445, R456). Temperatures are in eighths of a degree. -/

namespace Sys2Proof.Machine

/-! ### The trip (R393) -/

/-- A DEV_COMMIT in progress ends with the device's entry to SALVAGE. -/
def abortCommit (s : State) : State :=
  forEach (apsWaiting s fun _ c => c.opcode == 0x32) (fun s a => finish a stAborted (errorResult fcResetAbort 0 0) s)
    (updDev s fun d => { d with committing := false })

/-- THERMAL_TRIP (R393, R418): the output is held until package reset, and the next boot is a full one (R408); a boot in progress ends with it, so that no
step is (R407). -/
def trip (s : State) : State :=
  if s.side.thermTrip then s
  else
    let s1 := abortCommit (updDev { s with side := { s.side with thermTrip := true } } fun d =>
      { d with noFast := true, bootStep := 0, st := if d.st = .safeTalk then .safeTalk else .salvage })
    warnSevere 2 0x04 0xFF 0xFF 0xFF (forEach (List.range 6) (fun s q => enterSalvage q caTrip s) s1)

/-- 115 °C (R384, R393), in eighths. -/
def tripAt : Int := 920

/-- THERMAL_TRIP (R393): a compute sensor has reached 115 °C and trips the package in hardware, between two readings of R386; a reading, or a
modelled value, at `tripAt` trips it too (`sampleTrips`, `modelTrips`). -/
def execThermalTrip (s : State) : Host.Outcome State Fault Refusal := live s (trip s)

/-! ### Sensors (R385, R386, R389) -/

/-- The layers of a stack (R384). -/
def layerList (s : State) : List Nat := List.range (s.mdies + 2)

/-- The state with one layer of a site changed. -/
def updLayer (s : State) (k i j : Nat) (f : Sensor → Sensor) : State :=
  updSite s k i fun x => { x with layers := smapUpd {} x.layers j f }
/-- One layer of a site. -/
def getLayer (s : State) (k i j : Nat) : Sensor := smapGet {} (getSite s k i).layers j

/-- A sensor becomes distrusted (R389). -/
def distrust (k i j : Nat) (s : State) : State :=
  if (getLayer s k i j).distrusted then s
  else warn 2 0x01 k i j <| updStk (updSite (updLayer s k i j fun x => { x with distrusted := true, passes := 0 }) k i fun x => { x with distrust := true }) k
    fun x => { x with dcount := x.dcount + 1 }

/-- The reading of a site's layer from its samples (R385): the highest of a compute layer's four; none where any is invalid (R386), or where
the layer has no sample. -/
def layerReading (xs : List SensorSample) (i j : Nat) : Option (Option Int) :=
  let ys := xs.filter fun x => x.site == i && x.layer == j
  let ok := fun (r : Option Int) => match r with | some v => decide (-160 ≤ v) && decide (v ≤ 1200) | none => false
  match ys with
  | [] => none
  | y :: rest => some (if ys.all fun x => ok x.reading then some (rest.foldl (fun m x => max m (x.reading.getD m)) (y.reading.getD 0)) else none)

/-- One layer of a site read (R386): a trusted sensor's reading is its accepted value; an invalid sensor is distrusted at once. -/
def readLayer (k : Nat) (xs : List SensorSample) (i j : Nat) (s : State) : State :=
  match layerReading xs i j with
  | none => s
  | some none => distrust k i j (updLayer s k i j fun x => { x with valid := false })
  | some (some v) => updLayer s k i j fun x => { x with valid := true, reading := v, accepted := if x.distrusted then x.accepted else v }

/-- `DIE_REF_STAT.HOT` and `.SRC` of the memory dies of a stack (R190, R204): HOT rises at 85.0 °C. -/
def refreshHeat (k : Nat) (s : State) : State :=
  forEach (List.range s.mdies) (fun s d => updMDie s k d fun x => { x with
    hot := x.hot || (dieReadings s k d).any fun t => decide (680 ≤ t)
    src := dieModelled s k d }) s

/-- Whether a compute sensor among the samples reads 115 °C or more (R393), trusted or not. -/
def sampleTrips (xs : List SensorSample) : Bool :=
  xs.any fun x => decide (x.site < 48) && x.layer == 0 && (match x.reading with | some v => decide (tripAt ≤ v) | none => false)

/-- SENSOR_READ (R386): every 100 µs; a compute sensor at 115 °C trips the package (R393). -/
def sensorRead (k : Nat) (xs : List SensorSample) (s : State) : State :=
  if 6 ≤ k then s else
  let s1 := refreshHeat k (forEach (List.range 48) (fun s i => forEach (layerList s) (fun s j => readLayer k xs i j s) s) s)
  if sampleTrips xs then trip s1 else s1

/-- SENSOR_READ (R386). -/
def execSensorRead (stack : Nat) (xs : List SensorSample) (s : State) : Host.Outcome State Fault Refusal := live s (sensorRead stack xs s)

/-! ### Coolant (R394, R397) -/

/-- Whether the coolant readings are implausible (R394). -/
def coolBadNow (x : Side) : Bool :=
  decide (1000 ≤ x.inletAge) || decide (1000 ≤ x.outletAge) || decide (1000 ≤ x.flowAge)
    || (match x.inlet with | some t => decide (t < 0) || decide (1120 < t) | none => false)
    || (match x.inlet, x.outlet with | some i, some o => decide (o < i - 8) || decide (i + 480 < o) | _, _ => false)
    || x.flow == some 0

/-- Whether the inlet lies outside 20 °C to 45 °C (R394). -/
def inletOutNow (x : Side) : Bool := match x.inlet with | some t => decide (t < 320) || decide (720 < t) | none => false

/-- The coolant's episodes begin and end (R394). -/
def settleCool (s : State) : State :=
  let bad := coolBadNow s.side
  let out := inletOutNow s.side
  let s1 := { s with side := { s.side with coolBad := bad, inletOut := out } }
  let s2 := if bad && !s.side.coolBad then
      warn 2 0x05 0xFF 0xFF 0xFF (forEach (List.range 6) (fun s k => updStk s k fun x => { x with winBad := true }) s1)
    else s1
  if out && !s.side.inletOut then warn 2 0x06 0xFF 0xFF 0xFF s2 else s2

/-- A millisecond passes since the coolant readings were written. -/
def ageCool (s : State) : State :=
  settleCool { s with side := { s.side with inletAge := s.side.inletAge + 1, outletAge := s.side.outletAge + 1, flowAge := s.side.flowAge + 1 } }

/-! ### The plausibility check (R387, R388) -/

/-- What the loop of R387 carries down: the accepted value of the layer above, in units of 2.5 × 10⁻⁹ °C. -/
def unitsOf (eighths : Int) : Int := eighths * 50000000

/-- The clusters of a site (R385). -/
def siteDcs (s : State) (k i : Nat) : List Nat := (dieDcs k).filter fun dc => dcSite s dc == i

/-- The layer of a stack in which an event of the memory class draws: the Tarn die, or the memory die of its word or step. -/
def kindLayer (kind : Nat) : Nat := if 8 ≤ kind then 2 + kind % 4 else 1

/-- The estimate of one layer of a site over the last millisecond (R378, R387), in mW. DESIGN CHOICE: the leakage terms and the warming load are those
of the check's own moment. -/
def layerEst (s : State) (k i j : Nat) : Nat :=
  let dcs := siteDcs s k i
  (if j = 0 then actEnergy s.actMs s 2 (fun u _ => dcs.contains u) / 1000 + (dcs.map fun dc => cluLeak s dc + warmEst s dc).foldl (· + ·) 0
   else actEnergy s.actMs s 1 (fun u kind => dcs.contains u && kindLayer kind == j) / 1000 + layerLeak s k i j) / 1000

/-- The estimates of a site's layers, from layer 0 up. -/
def siteHeat (s : State) (k i : Nat) : List Nat := (layerList s).map (layerEst s k i)

/-- A new millisecond begins for the events of a site's clusters. -/
def clearMs (k i : Nat) (s : State) : State := { s with actMs := s.actMs.filter fun e => !(siteDcs s k i).contains (e.1 / 16) }

/-- The heat that crosses from a layer to the one above, in mW. -/
def heatCross (heat : List Nat) (j : Nat) : Nat := (heat.take (j + 1)).foldl (· + ·) 0

/-- θ of a layer's upper interface (R387): the cold plate's at the top. -/
def thetaOf (s : State) (k i j : Nat) : Nat := if j = s.mdies + 1 then smapGet 0 (getStk s k).plates i else Config.theta k i j

/-- θ × Q of a layer, in units of 2.5 × 10⁻⁹ °C. -/
def riseOf (s : State) (k i : Nat) (heat : List Nat) (j : Nat) : Int :=
  4 * ((thetaOf s k i j * heatCross heat j : Nat) : Int)

/-- A sensor after a check (R388): distrusted after three failures in a row, trusted again after 1,000 passes in a row. -/
def checked (k i j : Nat) (pass : Bool) (s : State) : State :=
  let s1 := updLayer s k i j fun x => { x with
    fails := if pass then 0 else min 3 (x.fails + 1), passes := if pass && x.distrusted then x.passes + 1 else 0 }
  let x := getLayer s1 k i j
  if !x.distrusted && 3 ≤ x.fails then distrust k i j s1
  else if x.distrusted && 1000 ≤ x.passes then
    let s2 := updLayer s1 k i j fun x => { x with distrusted := false, passes := 0 }
    if (layerList s2).any fun j => (getLayer s2 k i j).distrusted then s2
    else warn 2 0x02 k i j (updSite s2 k i fun x => { x with distrust := false })
  else s1

/-- A number of units rounded up to whole degrees, in eighths. -/
def ceilDegree (v : Int) : Int := -((-v) / 400000000) * 8

/-- One layer of the loop of R387: the state, and the accepted value it hands down. Without coolant readings the top layer is not checked: its pass is
taken as true, and the loop starts from its reading. -/
def checkLayer (k i : Nat) (heat : List Nat) (j : Nat) (above : Option Int) (s : State) : State × Option Int :=
  let x := getLayer s k i j
  match above with
  | none =>
    (updLayer (checked k i j true s) k i j fun x => { x with passLast := true, accepted := if x.distrusted then x.accepted else x.reading },
      some (unitsOf x.reading))
  | some up =>
    let e := riseOf s k i heat j
    let tol := 1200000000 + e / 4
    let hi := up + e + tol
    let pass := x.valid && decide (up + e - tol ≤ unitsOf x.reading) && decide (unitsOf x.reading ≤ hi)
    let s1 := checked k i j pass s
    let below := getLayer s1 k i (j - 1)
    let model := if 0 < j ∧ below.passLast then max hi (unitsOf below.reading - riseOf s k i heat (j - 1)) else hi
    let acc := if (getLayer s1 k i j).distrusted then ceilDegree model else x.reading
    (updLayer s1 k i j fun x => { x with passLast := pass, accepted := acc }, some (unitsOf acc))

/-- The loop of R387 from the top layer down. `passLast` of the layer below is still its previous check's. -/
def checkLayers (k i : Nat) (heat : List Nat) : List Nat → Option Int → State → State
  | [], _, s => s
  | j :: js, above, s =>
    let r := checkLayer k i heat j above s
    checkLayers k i heat js r.2 r.1

/-! ### Throttling (R390, R391) -/

/-- Where throttling starts and the limit, by layer (R384). -/
def layerStart (j : Nat) : Int := if j = 0 then 784 else if j = 1 then 760 else 720
def layerLimit (j : Nat) : Int := if j = 0 then 840 else if j = 1 then 800 else 760

/-- The level that one layer's accepted value calls for (R390). -/
def callLevel (j : Nat) (acc : Int) : Nat :=
  let a := acc - layerStart j
  let d := layerLimit j - layerStart j
  if a ≤ 0 then 0 else if 2 * a ≤ d then 1 else if 4 * a ≤ 3 * d then 2 else if a < d then 3 else 4

/-- The lower edge of a level's row, in fortieths of f (R390). -/
def levelEdge (n : Nat) : Int := if n ≤ 1 then 0 else if n = 2 then 20 else if n = 3 then 30 else 40

/-- Whether one layer's f lies at least 0.1 below the lower edge of a level's row. -/
def wellBelow (n j : Nat) (acc : Int) : Bool :=
  decide (40 * (acc - layerStart j) ≤ (levelEdge n - 4) * (layerLimit j - layerStart j))

/-- Whether clusters of a site run. -/
def siteRuns (s : State) (k i : Nat) : Bool := (siteDcs s k i).any fun dc => (getClu s dc).pwr.st == .on

/-- The thermal factor of a site after a check (R390), and how long each layer has stood at its limit while the site's clusters run at
factor 4.0 (R392). -/
def throttleSite (k i : Nat) (s : State) : State :=
  let runs := siteRuns s k i
  let acc := fun j => (getLayer s k i j).accepted
  let call := (layerList s).foldl (fun m j => max m (callLevel j (acc j))) 0
  updSite s k i fun x =>
    let low := decide (0 < x.level) && (layerList s).all fun j => wellBelow x.level j (acc j)
    let n := if low then x.cool + 1 else 0
    let y := if x.level < call then { x with level := call, cool := 0 }
      else if 10 ≤ n then { x with level := x.level - 1, cool := 0 } else { x with cool := n }
    { y with hot := (layerList s).foldl (fun h j =>
        smapSet 0 h j (if runs && y.level == 4 && decide (layerLimit j ≤ acc j) then smapGet 0 x.hot j + 1 else 0)) [] }

/-- The spring clock divisor for a temperature (R391), and the temperature from which a divisor holds. -/
def divFor (t : Int) : Nat := if t < 720 then 1 else if t < 736 then 2 else if t < 752 then 4 else if t < 760 then 8 else 16
def divFrom (n : Nat) : Int := if n ≤ 2 then 720 else if n = 4 then 736 else if n = 8 then 752 else 760

/-- The spring clock divisors of a stack's memory dies (R391); `tick` once per millisecond. -/
def throttleDies (k : Nat) (tick : Bool) (s : State) : State :=
  forEach (List.range s.mdies) (fun s d =>
    let t := (List.range 48).foldl (fun m i => max m (getLayer s k i (d + 2)).accepted) (getLayer s k 0 (d + 2)).accepted
    updMDie s k d fun x =>
      let n := divFor t
      if x.div < n then { x with div := n, cool := 0 }
      else if x.div = 1 ∨ divFrom x.div - 8 < t then { x with cool := 0 }
      else if !tick then x
      else if 10 ≤ x.cool + 1 then { x with div := x.div / 2, cool := 0 } else { x with cool := x.cool + 1 }) s

/-- A check's accepted compute value taken into the stack's window (R395). -/
def winCheck (k i : Nat) (s : State) : State :=
  updStk s k fun x => { x with winTemp := x.winTemp + (getLayer s k i 0).accepted, winChecks := x.winChecks + 1 }

/-- A modelled compute value of 115 °C or more trips the package (R393). -/
def modelTrips (k i : Nat) (s : State) : Bool := (getLayer s k i 0).distrusted && decide (tripAt ≤ (getLayer s k i 0).accepted)

/-- PLAUSIBILITY_CHECK (R387 to R391, R393): every 1 ms at each site. Site 0 counts the milliseconds of a falling keep-warm target (R400), and site 0
of stack 0 those since the coolant readings (R394). -/
def plausibility (k i : Nat) (s : State) : State :=
  if 6 ≤ k ∨ 48 ≤ i then s else
  let s0 := if k = 0 ∧ i = 0 then ageCool s else s
  let out := if s0.side.coolBad then none else s0.side.outlet.map fun t => t * 25000000
  let s1 := checkLayers k i (siteHeat s0 k i) (layerList s0).reverse out (clearMs k i s0)
  let s2 := throttleDies k (i == 0) (throttleSite k i (refreshHeat k s1))
  let s3 := winCheck k i (if modelTrips k i s2 then trip s2 else s2)
  settleWarm k (if i = 0 then updStk s3 k fun x => { x with fallMs := if x.holdOver then x.fallMs + 1 else x.fallMs } else s3)

/-- PLAUSIBILITY_CHECK (R387). Its operands `compute` and `above` bear on nothing: the heat is that of the model's own estimates. -/
def execPlausibilityCheck (stack site _compute : Nat) (_above : List Nat) (s : State) : Host.Outcome State Fault Refusal :=
  live s (plausibility stack site s)

/-! ### Stops (R392) -/

/-- OVERTEMP_STOP (R392): due once one layer has stood at its limit for 100 ms at factor 4.0. -/
def overtemp (k i : Nat) (s : State) : State :=
  if 6 ≤ k || 48 ≤ i || !((getSite s k i).hot.any fun e => decide (100 ≤ e.2)) then s
  else
    let s1 := stopClusters (siteDcs s k i) (updSite s k i fun x => { x with hot := [] })
    warnSevere 2 0x03 k i 0xFF (salvageStack k caOvertemp s1)

/-- OVERTEMP_STOP (R392). -/
def execOvertempStop (stack site : Nat) (s : State) : Host.Outcome State Fault Refusal := live s (overtemp stack site s)

/-! ### θ and keep-warm (R395, R396, R400) -/

/-- A thermal resistance in 10⁻⁵ °C/W (R395) from a sum of compute values in 1/8 °C and their number, the inlet in 1/16 °C and the power in W. -/
def thetaOfMean (sum : Int) (n : Nat) (inlet : Int) (power : Nat) : Nat :=
  ((2 * sum - inlet * n) * 100000 / (16 * n * power : Nat)).toNat

/-- The power of a stack's window, in W. -/
def winMean (x : Stack) : Nat := x.winPower / x.winTicks

/-- Whether a stack's window is valid (R395): its power at least 1.0 kW throughout and varying by at most 10% of its mean, with
plausible coolant readings throughout. -/
def winValid (s : State) (x : Stack) : Bool :=
  decide (0 < x.winTicks) && decide (0 < x.winChecks) && decide (1000 ≤ x.winLow) && decide (10 * (x.winHigh - x.winLow) ≤ winMean x)
    && !x.winBad && !s.side.coolBad && s.side.inlet.isSome

/-- A new window begins (R395), with the coolant readings implausible or not. -/
def winClear (bad : Bool) (x : Stack) : Stack :=
  { x with winTemp := 0, winChecks := 0, winPower := 0, winTicks := 0, winLow := 0, winHigh := 0, winBad := bad }

/-- A running θ judged (R396). -/
def judgeTheta (k theta : Nat) (s : State) : State :=
  let x := getStk s k
  let hi := if 115 * x.thetaBoot ≤ 100 * theta then x.degWin + 1 else 0
  let lo := if 100 * theta < 110 * x.thetaBoot then x.resWin + 1 else 0
  let s1 := updStk s k fun x => { x with thetaRun := min theta 0xFFFF, degWin := hi, resWin := lo }
  if !x.degraded && 6 ≤ hi then warn 2 0x07 k 0xFF 0xFF (updStk s1 k fun x => { x with degraded := true, resWin := 0 })
  else if x.degraded && 6 ≤ lo then warn 2 0x08 k 0xFF 0xFF (updStk s1 k fun x => { x with degraded := false, degWin := 0 })
  else s1

/-- THETA_WINDOW (R395, R396): the window's running θ, where it is valid. -/
def thetaWindow (k : Nat) (s : State) : State :=
  if 6 ≤ k then s else
  let x := getStk s k
  let s1 := updStk s k (winClear s.side.coolBad)
  if winValid s x then judgeTheta k (thetaOfMean x.winTemp x.winChecks (s.side.inlet.getD 0) (winMean x)) s1 else s1

/-- THETA_WINDOW (R396), once the window's 10 s have passed. -/
def execThetaWindow (stack : Nat) (elapsed : Bool) (s : State) : Host.Outcome State Fault Refusal :=
  live s (if elapsed then thetaWindow stack s else s)

/-- KEEP_WARM_HOLD_EXPIRE (R400): the target starts to fall. -/
def execKeepWarmHoldExpire (stack : Nat) (s : State) : Host.Outcome State Fault Refusal :=
  live s (if (getStk s stack).keepWarm && !(getStk s stack).holdOver then
    settleWarm stack (updStk s stack fun x => { x with holdOver := true, fallMs := 0 }) else s)

/-! ### SMBus (R394, R397, R445, R456) -/

/-- Whether the device acknowledges an SMBus command: on VAUX, once step 1 of a boot has started (R456). -/
def smbAnswers (s : State) : Bool := s.side.vaux && s.side.smbUp

/-- The 7-bit address at which the device answers (R456). -/
def smbAddress (s : State) : Nat := 0x4C + s.side.smbAddr % 4

/-- The next value of SMBus's packet error code, by one bit of its CRC-8. -/
def pecBit (c : Nat) : Nat := if 128 ≤ c then (2 * c - 256) ^^^ 7 else 2 * c

/-- The packet error code of a transfer's bytes. PRESUMED: SMBus 3.1 gives x⁸ + x² + x + 1, from zero. -/
def smbPec (bs : List Nat) : Nat := bs.foldl (fun c b => (List.range 8).foldl (fun c _ => pecBit c) (c ^^^ b % 256)) 0

/-- Whether the device takes a write-word as its command `code` (R456): under its address, and with a right packet error code or none. -/
def smbTakes (s : State) (code : Nat) (w : SmbusWrite) : Bool :=
  smbAnswers s && w.addr == smbAddress s && w.code == code
    && (w.pec.all fun p => p == smbPec [2 * w.addr, w.code, w.word.toNat % 256, w.word.toNat / 256])

/-- A reading taken: warnings wait for the end of a package reset. -/
def coolWrite (f : Side → Side) (s : State) : State :=
  let s1 := { s with side := f s.side }
  if s.dev.held || s.dev.frozen then s1 else settleCool s1

/-- INLET_TEMPERATURE_WRITE (R394). -/
def execInletTemperatureWrite (w : SmbusWrite) (s : State) : Host.Outcome State Fault Refusal :=
  pinned s (if smbTakes s 0x40 w then coolWrite (fun x => { x with inlet := some w.word.toInt, inletAge := 0 }) s else s)

/-- OUTLET_TEMPERATURE_WRITE (R394). -/
def execOutletTemperatureWrite (w : SmbusWrite) (s : State) : Host.Outcome State Fault Refusal :=
  pinned s (if smbTakes s 0x41 w then coolWrite (fun x => { x with outlet := some w.word.toInt, outletAge := 0 }) s else s)

/-- FLOW_WRITE (R394). -/
def execFlowWrite (w : SmbusWrite) (s : State) : Host.Outcome State Fault Refusal :=
  pinned s (if smbTakes s 0x42 w then coolWrite (fun x => { x with flow := some w.word.toNat, flowAge := 0 }) s else s)

/-- SUPPLY_REDUNDANCY_WRITE (R445): bit 0 set means lost. -/
def execSupplyRedundancyWrite (w : SmbusWrite) (s : State) : Host.Outcome State Fault Refusal :=
  pinned s (if smbTakes s 0x43 w then updDev s fun d => { d with supplyLost := natBit w.word.toNat 0 } else s)

/-- The thermal alert status (R397). -/
def alertStatus (s : State) : Nat :=
  let any := (List.range 6).any
  let dis := any fun k => (List.range 48).any fun i => (layerList s).any fun j => (getLayer s k i j).distrusted
  bit (any fun k => (getStk s k).degraded) + 2 * bit s.side.drift + 4 * bit dis + 8 * bit s.side.coolBad + 16 * bit s.side.inletOut
    + 32 * bit s.side.thermTrip

/-- Whether SMB_ALERT_N is asserted (R397): an unmasked bit of the status is set. -/
def alertLine (s : State) : Bool := (List.range 6).any fun i => natBit (alertStatus s) i && !natBit s.side.alertMask i

/-- What the device drives for the read-word command 0x30 under its address: the status in bits [15:0], then the packet error code of the transfer in bits
[23:16], which the tray may read or not (R456). -/
def statusWord (s : State) : Nat :=
  let w := alertStatus s
  let a := smbAddress s
  w + 2 ^ 16 * smbPec [2 * a, 0x30, 2 * a + 1, w % 256, w / 256]

/-- ALERT_STATUS_READ (R397): a read changes nothing but what the device drives. -/
def execAlertStatusRead (s : State) : Host.Outcome State Fault Refusal :=
  pinned s (if smbAnswers s then { s with side := { s.side with smbusOut := s.side.smbusOut ++ [statusWord s] } } else s)

/-- ALERT_DRIFT_CLEAR (R397): the W1C bit. -/
def execAlertDriftClear (w : SmbusWrite) (s : State) : Host.Outcome State Fault Refusal :=
  pinned s (if smbTakes s 0x31 w && natBit w.word.toNat 1 then { s with side := { s.side with drift := false } } else s)

/-- ALERT_MASK_WRITE (R397): bits [5:0]. -/
def execAlertMaskWrite (w : SmbusWrite) (s : State) : Host.Outcome State Fault Refusal :=
  pinned s (if smbTakes s 0x32 w then { s with side := { s.side with alertMask := w.word.toNat % 64 } } else s)

end Sys2Proof.Machine
end

