-- ==== Sys2Proof/Machine/Boot.lean ====
section
/-! DEFINITION. Package resets (R403, R404, R454), the boot (R405 to R412, R441 to R444), VAUX (R271, R460) and the persistent log (R471, R472). -/

namespace Sys2Proof.Machine

/-! ### What a package reset leaves (R404) -/

/-- A memory die's integrity registers (R271). -/
def keptMDie (d : MDie) : MDie := { ce := d.ce, ue := d.ue, passes := d.passes }

/-- A region after a package reset: its rail keeps its setpoint (R404), and a slack stretch lasts until the next cold boot (R381). -/
def keptRgn (r : Rgn) : Rgn := { vset := r.vset, slack := r.slack }

/-- The entries of a table changed one by one, in canonical form. -/
def smapMap {α : Type} [DecidableEq α] (d : α) (f : α → α) (m : SMap α) : SMap α :=
  m.foldl (fun acc e => smapSet d acc e.1 (f e.2)) []

/-- A stack after a package reset: the registers held on VAUX (R271, R474). -/
def keptStack (k : Stack) : Stack :=
  { mdie := smapMap {} keptMDie k.mdie, ceTarn := k.ceTarn, ceSpm := k.ceSpm, ueTarn := k.ueTarn, ueSpm := k.ueSpm
    poisonReads := k.poisonReads, log := k.log, logOvf := k.logOvf, unlogged := k.unlogged, dhours := k.dhours, thours := k.thours
    scrubEn := k.scrubEn, dpass := k.dpass, tpass := k.tpass, rgns := smapMap {} keptRgn k.rgns, energy := k.energy }

/-- The device after a package reset: fuses, the flash, the number of the boot, and what decides the path of the next boot (R404, R408). -/
def keptDev (d : Dev) : Dev :=
  { fastBoots := d.fastBoots, reachedConfig := d.reachedConfig, noFast := d.noFast, failCode := d.failCode
    rollback := d.rollback, lockBits := d.lockBits, ownerSlots := d.ownerSlots, ownerReleased := d.ownerReleased
    fuseCols := d.fuseCols, fuseCores := d.fuseCores, flash := d.flash, bootNo := d.bootNo }

/-- The settings of the cap before POWER_SET (R375); the energy counters stay (R474). -/
def defaultPower (s : State) : Power :=
  let n := s.ports / 2
  let p := s.power
  { cap := variantLimit s
    links := { floor := 4 * n, ceil := 6 * n }
    memory := { floor := 35, ceil := 41 + 10 * s.mdies }
    compute := { floor := 30, ceil := variantLimit s }
    ePackage := p.ePackage, eLinks := p.eLinks, eMemory := p.eMemory, eCompute := p.eCompute, eUnclassed := p.eUnclassed }

/-- The sideband after a package reset: the trip is released (R404), and FL_RST_N is held low for 10 µs (R458); the pins and what the device has driven
stay. -/
def keptSide (x : Side) : Side :=
  { vaux := x.vaux, pwrgd := x.pwrgd, pkgRstLow := x.pkgRstLow, smbUp := x.smbUp, smbAddr := x.smbAddr, flResets := x.flResets + 1, coldDue := false
    smbusOut := x.smbusOut, avsOut := x.avsOut }

/-- A package reset held (R404): everything but what survives takes its reset value. -/
def packageReset (s : State) : State :=
  { pending := s.pending, mdies := s.mdies, ports := s.ports, serial := s.serial, rev := s.rev
    stks := smapMap {} keptStack s.stks
    pcie := { posted := s.pcie.posted, signals := s.pcie.signals }
    dev := keptDev s.dev
    power := defaultPower s
    side := keptSide s.side
    nextWalk := s.nextWalk, nextBar := s.nextBar, stuck := s.stuck, stuckMem := s.stuckMem, free := s.free }

/-! ### A rail that fails in a boot (R405, R406) -/

/-- The rails of step 4 written up to the one that fails (R405). -/
def railsUpTo (rail : Rail) (s : State) : State :=
  let is := fun (r : Nat × Nat × Nat) => (railSelects rail).1 == r.1 && (railSelects rail).2.contains r.2.1
  let rs := railOrder s
  if rs.any is then { s with side := { s.side with avsOut := s.side.avsOut ++ rs.take (rs.findIdx is + 1) } } else s

/-- A rail that faults in a step of the boot (R406), the rails before it having been written. -/
def bootRailFault (n : Nat) (rail : Rail) (s : State) : State :=
  let s1 := if n = 4 then railsUpTo rail s
    else if n = 1 then { s with side := { s.side with avsOut := s.side.avsOut ++ [(6, 0, 750)] } } else s
  railOff rail (updDev s1 fun d => { d with failedRails := d.failedRails ++ [rail] })

/-! ### Firmware slots (R438, R441) -/

/-- A field of the image in a slot. -/
def slotField (s : State) (n off len : Nat) : Nat := leNat (flashBytes s (slotBase n + off) len)

/-- The image in a slot, as long as it says. -/
def slotImage (s : State) (n : Nat) : List Byte := flashBytes s (slotBase n) (slotField s n 24 4)

/-- A component entry of an image (R438): kind, offset, length, digest. -/
def component (img : List Byte) (i : Nat) : Nat × Nat × Nat × List Byte :=
  let b := 64 + 64 * i
  (fieldAt img b 1, fieldAt img (b + 4) 4, fieldAt img (b + 8) 4, bytesAt img (b + 16) 48)

/-- The digest that an image's signature signs: over all but its last 96 bytes. -/
def imageDigest (img : List Byte) : List Byte := bytesAt (sha384 (img.take (img.length - 96))) 0 48

/-- Whether the signer chain and signature of an image verify (R438). -/
def imageSigned (img : List Byte) : Bool :=
  signerOk (bytesAt img (fieldAt img 16 4) (fieldAt img 20 4)) (imageDigest img) (img.drop (img.length - 96))

/-- Whether a slot verifies (R438). -/
def slotVerifies (s : State) (n : Nat) : Bool :=
  let len := slotField s n 24 4
  let img := slotImage s n
  let inside := fun (o l : Nat) => decide (o + l ≤ len - 96)
  let cs := (List.range 4).map (component img)
  flashBytes s (slotBase n) 4 == ascii "KNFW" && slotField s n 4 2 == 1 && decide (slotField s n 12 1 ≤ 64)
    && decide (slotField s n 13 1 ≤ max 1 s.rev) && decide (416 ≤ len) && decide (len ≤ slotSize) && decide (s.dev.rollback ≤ slotField s n 12 1)
    && inside (slotField s n 16 4) (slotField s n 20 4) && (List.range 4).all (fun i => (cs.filter fun c => c.1 == i).length == 1)
    && cs.all (fun c => inside c.2.1 c.2.2.1 && bytesAt (sha384 (bytesAt img c.2.1 c.2.2.1)) 0 48 == c.2.2.2)
    && imageSigned img

/-- The image of a slot runs (R428, R438), from the copy that the ROM has verified. -/
def runImage (n : Nat) (s : State) : State :=
  let v := slotField s n 8 4
  let svn := slotField s n 12 1
  let img := slotImage s n
  extendDev 1 1 n (leBytes 4 v ++ leBytes 1 svn) (imageDigest img) <|
    updDev s fun d => { d with runSlot := some n, version := v, svn := svn, setfmt := slotField s n 6 2, runDigest := imageDigest img, image := img }

/-! ### The steps (R407) -/

/-- Step 1 (R405, R428, R446, R458): the ROM measures itself, the wear counts and the flash's SFDP are read, and VIO rail 0 comes up. -/
def bootStart (x : BootSample) (s : State) : State :=
  extendDev 0 0 0 [] Config.romDigest <|
    readWear (updDev { s with side := { s.side with avsOut := s.side.avsOut ++ [(6, 0, 750)] } } fun d => { d with flash8D := x.sfdp })

/-- Step 2 (R441): the active slot, else the other; code SLOTS where neither verifies. -/
def bootSlots (s : State) : State × Nat :=
  let s0 := readBootControl s
  let a := s0.dev.active % 2
  if slotVerifies s0 a then (runImage a s0, 0)
  else if slotVerifies s0 (1 - a) then
    let s1 := updDev (runImage (1 - a) s0) fun d => { d with active := 1 - a, fellBack := true }
    (warnSevere 3 0x01 0xFF 0xFF 0xFF (writeBootControl s1), 0)
  else (s0, 1)

/-- Whether the part's own chain passes its checks (R426). -/
def ownChain (s : State) : Bool :=
  let c := chainBytes s
  chainNames c s.serial && chainKey c == identityKey s

/-- A helper's memory is cleared, its component loaded from the verified copy and D2 extended (R442); it is released where it reports ready. -/
def loadHelper (ready : Bool) (s : State) (kind : Nat) : State :=
  match ((List.range 4).map (component s.dev.image)).find? fun c => c.1 == kind with
  | some c => updDev (extendDev 2 2 kind [] c.2.2.2 s) fun d => { d with
      helperMem := smapSet {} d.helperMem kind { code := bytesAt d.image c.2.1 c.2.2.1 }
      helpers := if ready then d.helpers ++ [kind] else d.helpers }
  | none => s

/-- Step 3 (R426, R442, R472): the sector of the persistent log that the reset left open, the chain, and the helpers, all held in reset with their
memories cleared, then loaded in turn up to the one that fails. -/
def bootHelpers (fails : Option Nat) (s : State) : State :=
  let s1 := plogFind s
  let s2 := updDev s1 fun d => { d with chainValid := ownChain s1, helpers := [], helperMem := [] }
  let s3 := if s2.dev.chainValid then s2 else warn 3 0x05 0xFF 0xFF 0xFF s2
  let upTo := match fails with | some f => [1, 2, 3].filter fun k => decide (k ≤ f) | none => [1, 2, 3]
  forEach upTo (fun s k => loadHelper (fails != some k) s k) s3

/-! ### Settings (R437, R443, R444) -/

/-- The self-test map as bytes (R428, R443). -/
def mapBytes (t : Settings) : List Byte :=
  leBytes 1 t.mapSlot ++ bytesAt t.mapDigest 0 48 ++ leBytes 1 t.mapSpine ++ leBytes 1 t.mapPorts ++ leBytes 2 t.mapCols.length
    ++ leBytes 2 t.mapCores.length ++ t.mapCols.flatMap (leBytes 2) ++ t.mapCores.flatMap (leBytes 4)

/-- A table's values below `n`, `w` bytes each. -/
def tableBytes (n w : Nat) (m : SMap Nat) : List Byte := (List.range n).flatMap fun i => leBytes w (smapGet 0 m i)

/-- The fields of the settings block. -/
def settingsFields (t : Settings) (seq : Nat) : List Byte :=
  ascii "KNST" ++ leBytes 4 seq ++ leBytes 2 t.fmt ++ leBytes 2 (bit t.hasMap + 2 * bit t.hasInst)
    ++ (List.range 24).map (fun i => BitVec.ofInt 8 (smapGet 0 t.trims i)) ++ tableBytes 6 2 t.thetaBoot ++ tableBytes 6 2 t.thetaInst
    ++ tableBytes 288 4 t.fits ++ mapBytes t

/-- The bytes of a settings copy's fields; none where its format is not the running image's `SETFMT` (R444). -/
def settingsLen (s : State) (o : Nat) : Option Nat :=
  let f := fun (i : Nat) => leNat (flashBytes s (o + i) 2)
  if flashBytes s o 4 = ascii "KNST" ∧ f 8 = s.dev.setfmt then some (1267 + 2 * f 1263 + 4 * f 1265) else none

/-- A table of `n` values of `w` bytes. -/
def tableAt (bs : List Byte) (o n w : Nat) : SMap Nat := (List.range n).foldl (fun m i => smapSet 0 m i (fieldAt bs (o + w * i) w)) []

/-- The settings of a copy's fields. -/
def parseSettings (bs : List Byte) : Settings :=
  let cols := fieldAt bs 1263 2
  { fmt := fieldAt bs 8 2, hasMap := natBit (fieldAt bs 10 2) 0, hasInst := natBit (fieldAt bs 10 2) 1
    trims := (List.range 24).foldl (fun m i => smapSet 0 m i (bs.getD (12 + i) 0).toInt) []
    thetaBoot := tableAt bs 36 6 2, thetaInst := tableAt bs 48 6 2, fits := tableAt bs 60 288 4
    mapSlot := fieldAt bs 1212 1, mapDigest := bytesAt bs 1213 48, mapSpine := fieldAt bs 1261 1, mapPorts := fieldAt bs 1262 1
    mapCols := (List.range cols).map fun i => fieldAt bs (1267 + 2 * i) 2
    mapCores := (List.range (fieldAt bs 1265 2)).map fun i => fieldAt bs (1267 + 2 * cols + 4 * i) 4 }

/-- The settings block written (R437, R443). -/
def writeSettings (t : Settings) (s : State) : State :=
  let w := areaWrite settingsArea s.dev.setAt (settingsFields t) s
  updDev w.1 fun d => { d with settings := t, setAt := w.2 }

/-- The settings read (R444): where no copy qualifies, the defaults are taken and written, with a warning. -/
def readSettings (s : State) : State :=
  match areaRead s settingsArea (settingsLen s) with
  | some r => updDev s fun d => { d with settings := parseSettings r.2, setAt := r.1 }
  | none => warn 3 0x03 0xFF 0xFF 0xFF (writeSettings { fmt := s.dev.setfmt } (updDev s fun d => { d with setAt := {} }))

/-- Whether the soft-repair record, as the flash holds it, has a fabric-hop entry (R277, R408). -/
def hopRecorded (s : State) : Bool :=
  match storedRepair s with
  | some r => r.2.any fun e => e % 16 == rkHop
  | none => false

/-- Whether a boot takes the fast path (R408); `full` holds also where the boot before it did not reach CONFIG. -/
def fastBoot (cold full : Bool) (s : State) : Bool :=
  let t := s.dev.settings
  !cold && !full && t.hasMap && t.mapSlot == s.dev.active && t.mapDigest == s.dev.runDigest && !s.dev.noFast
    && !hopRecorded s && decide (s.dev.fastBoots < 16)

/-- The trim of a region measured anew (R381). -/
def newTrim (i : Nat) (old slack : Int) : Int :=
  if slack < 0 then old - slack
  else if 2 < slack ∧ (List.range 7).all (fun k => decide ((Config.vminMv i k : Int) ≤ Config.vfMv i k + 5 * (old - 1))) then old - 1
  else old

/-- The trims set (R381): measured, or reused on the fast path; the setpoints follow in steps (R362). -/
def setTrims (x : BootSample) (fast : Bool) (s : State) : State :=
  let t := s.dev.settings
  forEach (List.range 24) (fun s i =>
    let old := smapGet 0 t.trims i
    let new := if fast then old else newTrim i old (x.slack.getD i 0)
    let lost := decide (850 < (Config.vfMv i 0 : Int) + 5 * new)
    let r := getRgn s (rgnDie i) (rgnNo i)
    let mv := pointMv i { r with trim := new } 6
    let s1 := avsWrite (rgnDie i) (rgnNo i) (voltSteps r.vset mv) <|
      updRgn s (rgnDie i) (rgnNo i) fun r => { r with trim := new, topLost := lost, vset := mv }
    if lost && !fast then warn 1 0x08 (rgnDie i) (rgnNo i) 0xFF s1 else s1) s

/-- The event log moves to its ring as VTARN rises (R470): where entries beyond 64 were lost, the first entry written to the ring counts
them; it carries the number of the last one lost. -/
def logToRing (s : State) : State :=
  let lost := s.dev.logSeq - s.dev.log.length
  if lost = 0 then s else
  let e : LogEnt := { seq := lost - 1, time := s.dev.time, code := 0x0109, sev := 1, part := 0xFF
                      data := mkResult [(0, 1, 4), (2, 2, Config.ringLost), (4, 1, 0xFF), (5, 1, 0xFF), (6, 1, 0xFF), (28, 4, lost)] }
  updDev s fun d => { d with log := e :: d.log }

/-- Step 4 (R381, R405): the rails, the event-log ring and the trims; a slack stretch ends at a cold boot. -/
def bootRails (x : BootSample) (cold full : Bool) (s : State) : State :=
  let s0 := readSettings s
  let fast := fastBoot cold full s0
  let s1 := setTrims x fast (logToRing <| railsUp (updDev s0 fun d => { d with fastPath := fast }))
  if cold then forEach (List.range 24) (fun s i => updRgn s (rgnDie i) (rgnNo i) fun r => { r with slack := false }) s1 else s1

/-- Every stack's valid stores cleared (R207, R407). -/
def clearAll (s : State) : State := forEach (List.range 6) (fun s k => clearStack k s) s

/-- The spare rows and bit-column groups that the record's entries take (R274): in its order, within the spares that the fuse map and the self-test
have left of their bank; an entry with a reserved value is skipped (R275). -/
def sparesTaken (s : State) : List Nat :=
  s.dev.repair.foldl (fun (got : List Nat) e =>
    let bank := e % 2 ^ 25
    let used := Config.sparesUsed s.dev.bootNo bank + (got.filter fun x => x % 2 ^ 25 == bank).length
    if repairOk s e ∧ e % 16 < 4 ∧ used < repairSpares (e % 16) then got ++ [e] else got) []

/-- Step 5 (R274, R275, R428): the soft-repair record applied and measured, and the valid stores cleared. -/
def bootRepair (s : State) : State :=
  let s1 := readRepair s
  let s2 := if s1.dev.repairOn then s1 else warn 3 0x04 0xFF 0xFF 0xFF s1
  clearAll (extendDev 4 4 0 [] (sha384 (repairBytes s2)) (updDev s2 fun d => { d with spares := sparesTaken s2 }))

/-! ### Sparing (R34 to R37, R277, R411) -/

/-- The entries of the soft-repair record of one kind, those with a reserved value skipped (R275). -/
def recordOf (s : State) (kind : Nat) : List Nat := s.dev.repair.filter fun e => repairOk s e && e % 16 == kind

/-- The physical column that an entry names, as die × 256 + column. -/
def entryCol (e : Nat) : Nat := natBits e 6 4 * 256 + natBits e 17 10

/-- The physical core columns known to be bad (die × 256 + column, × 64 + core column): by the fuse map, the record and the self-test (R36). -/
def badCoreCols (s : State) (t : Settings) : List Nat :=
  (s.dev.fuseCores ++ (recordOf s rkCoreCol).map (fun e => entryCol e * 64 + natBits e 40 25) ++ t.mapCores).foldl setIns []

/-- The physical columns retired: by the fuse map, the record and the self-test, and where more than one core column is bad (R34, R36). -/
def retiredCols (s : State) (t : Settings) : List Nat :=
  let cs := badCoreCols s t
  let twice := (cs.filter fun e => cs.any fun f => f / 64 == e / 64 && f != e).map (· / 64)
  (s.dev.fuseCols ++ (recordOf s rkColumn).map entryCol ++ t.mapCols ++ twice).foldl setIns []

/-- Where a die's retired columns go (R34): each logical cluster whose own column is retired takes the next spare that is not; none where the spares
do not suffice (R37). -/
def dieMap (s : State) (t : Settings) (d : Nat) : Option (List (Nat × Nat)) :=
  let bad := ((retiredCols s t).filter fun c => c / 256 == d).map (· % 256)
  let need := bad.filter fun c => decide (c < 192)
  let free := (span 192 200).filter fun c => !bad.contains c
  if need.length ≤ free.length then some ((need.zip free).map fun e => (d * 256 + e.1, e.2)) else none

/-- Whether a stack is unavailable (R37, R277): its spine failed, or its die has no spare column left. -/
def stackLost (s : State) (t : Settings) (d : Nat) : Bool := natBit t.mapSpine d || (dieMap s t d).isNone

/-- The column map of the package. -/
def colMapOf (s : State) (t : Settings) : SMap Nat := (List.range 6).flatMap fun d => (dieMap s t d).getD []

/-- The core-column map: the one bad core column of each column in service is its spare's to replace (R34). -/
def coreMapOf (s : State) (t : Settings) : SMap Nat :=
  let cols := colMapOf s t
  let gone := retiredCols s t
  (badCoreCols s t).foldl (fun m e =>
    let p := e / 64
    if gone.contains p then m
    else if p % 256 < 192 then smapSet 32 m p (e % 64)
    else match cols.find? fun x => x.1 / 256 == p / 256 && x.2 == p % 256 with
      | some x => smapSet 32 m x.1 (e % 64)
      | none => m) []

/-- The stacks of the recorded die-spine hops that fail their retest (R277), as a mask. -/
def spineFails (x : BootSample) : Nat :=
  (List.range 6).foldl (fun m k => m + 2 ^ k * bit (x.badHops.any fun e => e % 16 == rkHop && decide (16 ≤ natBits e 24 18) && natBits e 6 4 == k)) 0

/-- The columns that the self-test finds bad, those of leaf uplinks that fail their retest among them (R277, R411). -/
def testCols (x : BootSample) : List Nat :=
  ((x.badColumns.filter fun c => decide (c / 256 < 6) && decide (c % 256 < 200))
    ++ (x.badHops.filter fun e => e % 16 == rkHop && decide (natBits e 24 18 < 16)).map entryCol).foldl setIns []

/-- The settings block that a full boot writes at step 7 (R443). -/
def bootSettings (x : BootSample) (cold : Bool) (s : State) : Settings :=
  let tab := fun {α : Type} [DecidableEq α] (d : α) (n : Nat) (f : Nat → α) => (List.range n).foldl (fun m i => smapSet d m i (f i)) ([] : SMap α)
  { trims := tab 0 24 fun i => (getRgn s (rgnDie i) (rgnNo i)).trim
    thetaBoot := tab 0 6 fun k => (getStk s k).thetaBoot
    thetaInst := tab 0 6 fun k => (getStk s k).thetaInst
    fits := tab 0 288 fun i => smapGet 0 (getStk s (i / 48)).plates (i % 48)
    mapSlot := s.dev.active, mapDigest := s.dev.runDigest, mapSpine := spineFails x
    mapPorts := (List.range 3).foldl (fun m k => m + 2 ^ k * bit (x.deadPorts.contains k)) 0
    mapCols := testCols x
    mapCores := (x.badCores.filter fun c => decide (c / 64 / 256 < 6) && decide (c / 64 % 256 < 200) && decide (c % 64 < 33)).foldl setIns []
    hasMap := true, hasInst := s.dev.settings.hasInst || cold, fmt := s.dev.setfmt }

/-- The code of a boot that leaves no stack (R409). -/
def noStack (s : State) (t : Settings) : Bool := (List.range 6).all (stackLost s t)

/-- The stacks marked available or not (R37). -/
def markStacks (t : Settings) (s : State) : State :=
  forEach (List.range 6) (fun s' k => updStk s' k fun y => { y with unavailable := stackLost s t k }) s

/-- The fixed load's results for a stack (R395): the boot baseline, the install baseline, and the cold plates; drift is reported at a cold boot. -/
def bootBaseline (x : BootSample) (cold : Bool) (k : Nat) (s : State) : State :=
  let l := x.load.getD k (0, 0, 0)
  let b := min (thetaOfMean l.1 1 l.2.1 l.2.2) 0xFFFF
  let t := s.dev.settings
  let inst := if t.hasInst then smapGet 0 t.thetaInst k else if cold then b else 0
  let fits := (List.range 48).foldl (fun m i => smapSet 0 m i (x.plates.getD (k * 48 + i) 0)) []
  let s1 := updStk s k fun y => { y with thetaBoot := b, thetaInst := inst, plates := fits }
  if cold && inst != 0 && 115 * inst ≤ 100 * b then warn 2 0x09 k 0xFF 0xFF { s1 with side := { s1.side with drift := true } } else s1

/-- Step 6 (R37, R277, R395, R411): hops that pass their retest leave the record, bad sensors are distrusted, and the boot baselines are
measured; with no stack left, every stack is marked unavailable and the code is NO_STACK. -/
def bootTest (x : BootSample) (cold : Bool) (s : State) : State × Nat :=
  let keep := s.dev.repair.filter fun e => e % 16 != rkHop || x.badHops.contains e
  let s1 := if keep = s.dev.repair then s else writeRepair keep s
  let s2 := forEach x.badSensors (fun s b => if b.1 < 6 ∧ b.2.1 < 48 ∧ b.2.2 < s.mdies + 2 then distrust b.1 b.2.1 b.2.2 s else s) s1
  let s3 := forEach (List.range 6) (fun s k => bootBaseline x cold k s) s2
  let t := bootSettings x cold s3
  if noStack s3 t then (markStacks t s3, 6) else (s3, 0)

/-- The map applied (R34 to R37, R409), with the stored baselines on the fast path. -/
def applyMap (t : Settings) (fast : Bool) (s : State) : State :=
  let s1 := forEach (List.range 6) (fun s k => updStk s k fun y => { y with
    thetaBoot := if fast then smapGet 0 t.thetaBoot k else y.thetaBoot
    thetaInst := if fast then smapGet 0 t.thetaInst k else y.thetaInst
    plates := if fast then (List.range 48).foldl (fun m i => smapSet 0 m i (smapGet 0 t.fits (k * 48 + i))) [] else y.plates }) (markStacks t s)
  updDev s1 fun d => { d with
    colMap := colMapOf s t, coreMap := coreMapOf s t, deadPortDies := (List.range 3).filter fun k => natBit t.mapPorts k }

/-- The boot-control record and the rollback counter at step 7 (R441). -/
def bootGood (s : State) : State :=
  let s1 := writeBootControl (updDev s fun d => { d with lastGood := d.runSlot.getD 0xFF })
  if s1.dev.rollback < s1.dev.svn then warn 3 0x02 0xFF 0xFF 0xFF (updDev s1 fun d => { d with rollback := min 64 d.svn }) else s1

/-- Step 7 (R407, R428, R441, R443): CONFIG, unless the map leaves no stack. -/
def bootConfig (x : BootSample) (cold : Bool) (s : State) : State × Nat :=
  let fast := s.dev.fastPath
  let t := if fast then s.dev.settings else bootSettings x cold s
  if noStack s t then (markStacks t s, 6) else
  let s1 := clearAll (applyMap t fast (if fast then s else writeSettings t s))
  let s2 := bootGood (extendDev 4 5 0 [] (sha384 (mapBytes t)) s1)
  (updDev s2 fun d => { d with
    st := .config, bootStep := 0, failCode := 0, reachedConfig := true, fastBoots := if fast then d.fastBoots + 1 else 0
    noFast := fast && d.noFast }, 0)

/-- The work of a step: the state, and the code of R409 that it ends with, 0 for none. -/
def stepWork7 (x : BootSample) (cold full : Bool) (n : Nat) (s : State) : State × Nat :=
  match n with
  | 1 => (bootStart x s, 0)
  | 2 => bootSlots s
  | 3 => (bootHelpers none s, 0)
  | 4 => (bootRails x cold full s, 0)
  | 5 => (bootRepair s, 0)
  | 6 => bootTest x cold s
  | _ => bootConfig x cold s

/-- The physical failure of a step (R406, R409), where its code may arise there: HELPER at step 3, LEAD_IO and SPINE at step 6, RAIL anywhere. -/
def stepFails (x : BootSample) (n : Nat) (s : State) : Option (State × Nat) :=
  match x.fails with
  | none => none
  | some (m, c) =>
    if m ≠ n then none
    else if c = 3 then (x.rail.filter (railExists s)).map fun r => (bootRailFault n r s, 3)
    else if c = 2 ∧ n = 3 ∧ 1 ≤ x.helper ∧ x.helper ≤ 3 then some (bootHelpers (some x.helper) s, c)
    else if (c = 4 ∨ c = 5) ∧ n = 6 then some (s, c)
    else none

/-- The steps in turn (R407): a boot that is cut short stays in its step; a step that fails ends in SAFE-TALK. -/
def bootSteps (x : BootSample) (cold full : Bool) : List Nat → State → State
  | [], s => s
  | n :: ns, s =>
    if n = 6 && s.dev.fastPath then bootSteps x cold full ns s else
    let s1 := updDev { s with side := { s.side with smbUp := true } } fun d => { d with bootStep := n, st := if n < 6 then .boot else .selftest }
    if x.cut = some n then s1 else
    match stepFails x n s1 with
    | some (s2, c) => bootFail c s2
    | none =>
      let r := stepWork7 x cold full n s1
      if r.2 = 0 then bootSteps x cold full ns r.1 else bootFail r.2 r.1

/-- The host enumerates the function while the device boots (R278, R310): it programs a maximum payload size of 128 to 512 bytes and a maximum read
request size of 128 to 4,096 bytes. -/
def enumerated (x : BootSample) (s : State) : State :=
  { s with pcie := { s.pcie with maxPayload := 128 * 2 ^ min 2 x.payload, maxReadReq := 128 * 2 ^ min 5 x.readReq } }

/-- A boot (R407): cold, or warm; `full` where the cause asks for the full self-test (R403). -/
def boot (x : BootSample) (cold full : Bool) (s : State) : State :=
  let s1 := updDev s fun d => { d with
    held := false, bootNo := d.bootNo + 1
    flash := x.flash.foldl (fun m e => smapSet 0xFF m e.1 (BitVec.ofNat 8 e.2)) d.flash }
  bootSteps x cold full [1, 2, 3, 4, 5, 6, 7] (updDev (enumerated x s1) fun d => { d with reachedConfig := false })

/-- The boot with what R408 asks of the previous one still known at step 4. -/
def bootFrom (x : BootSample) (cold full : Bool) (s : State) : State :=
  boot x cold (full || !s.dev.reachedConfig) s

/-! ### The causes (R403, R454) -/

/-- PWRGD_IN_RISE (R403, R407): a cold boot. After VAUX has been applied it is a package reset of its own (R458); after a fall it ends the one that the
fall began (R454). -/
def execPwrgdInRise (x : BootSample) (s : State) : Host.Outcome State Fault Refusal :=
  pinned s (if s.side.vaux && !s.side.pwrgd then
    bootFrom x true true { s with side := { s.side with
      pwrgd := true, pkgRstLow := false, flResets := s.side.flResets + bit s.side.coldDue, coldDue := false } } else s)

/-- PWRGD_IN_FALL (R454): a package reset, held. -/
def execPwrgdInFall (s : State) : Host.Outcome State Fault Refusal :=
  pinned s (if s.side.pwrgd then packageReset { s with side := { s.side with pwrgd := false } } else s)

/-- PKG_RST_N_ASSERT (R454): a package reset, held; no effect without power-good, nor while the input is low already. -/
def execPkgRstNAssert (s : State) : Host.Outcome State Fault Refusal :=
  pinned s (if s.side.vaux && s.side.pwrgd then if s.side.pkgRstLow then s else packageReset { s with side := { s.side with pkgRstLow := true } }
    else { s with side := { s.side with pkgRstLow := s.side.vaux } })

/-- PKG_RST_N_RELEASE (R408, R454): the warm path. -/
def execPkgRstNRelease (x : BootSample) (s : State) : Host.Outcome State Fault Refusal :=
  pinned s (if s.side.pkgRstLow then
    let s1 := { s with side := { s.side with pkgRstLow := false } }
    if s.side.pwrgd && s.dev.held then bootFrom x false false s1 else s1
  else s)

/-- WATCHDOG_EXPIRE (R403, R409): during a boot, SAFE-TALK with code WATCHDOG; else a warm reset with the full self-test. -/
def execWatchdogExpire (x : BootSample) (s : State) : Host.Outcome State Fault Refusal :=
  pinned s (if !s.side.vaux || s.dev.held then s
    else if s.dev.st = .boot ∨ s.dev.st = .selftest then bootFail 7 s
    else bootFrom x false true (packageReset s))

/-- MERIDIAN_RESET_REQUEST (R403): 100 ms after FW_ACTIVATE's reply in SAFE-TALK. -/
def execMeridianResetRequest (x : BootSample) (s : State) : Host.Outcome State Fault Refusal :=
  pinned s (if s.dev.resetDue && !s.dev.held then bootFrom x false true (packageReset s) else s)

/-! ### VAUX (R271, R455, R460, R474) -/

/-- What is left without VAUX: the fuses and the flash; the registers held on VAUX are lost. -/
def vauxGone (s : State) : State :=
  let s1 := packageReset s
  let p := s1.power
  { s1 with
    stks := []
    power := { p with ePackage := 0, eLinks := 0, eMemory := 0, eCompute := 0, eUnclassed := 0 }
    side := { vaux := false, smbAddr := s1.side.smbAddr, flResets := s.side.flResets, smbusOut := s1.side.smbusOut, avsOut := s1.side.avsOut }
    dev := { s1.dev with reachedConfig := false, fastBoots := 0, failCode := 0 } }

/-- VAUX_LOSS (R460): all device state is lost, and THERMTRIP_N is left undriven (R455). -/
def execVauxLoss (s : State) : Host.Outcome State Fault Refusal := pinned s (if s.side.vaux then vauxGone s else s)

/-- VAUX_APPLY (R271): the registers held on VAUX start at zero; the device waits for power-good. -/
def execVauxApply (s : State) : Host.Outcome State Fault Refusal :=
  pinned s (if s.side.vaux then s else { vauxGone s with side := { (vauxGone s).side with vaux := true } })

/-! ### The persistent log (R471, R472) -/

/-- A stack's correctable-error table copied (R272): one entry for each of its own, whose DATA is the entry's 32 bytes. -/
def copyTable (stk : Nat) (es : List MemLog) (s : State) : State :=
  forEach es (fun s e => plogAppend
    { seq := s.dev.logSeq, time := s.dev.time, code := 0x0109, sev := 2, part := stk, data := (List.range 4).flatMap fun q => leBytes 8 (memLogRead e q) } s) s

/-- PERSISTENT_LOG_APPEND (R471): waits behind FW_WRITE, a table to be copied behind the queue; what the full queue did not take is counted in a LOG_LOST entry first. -/
def persistAppend (s : State) : State :=
  if fwWriting s then s else
  match s.dev.persistQ with
  | [] =>
    match s.dev.logCopies with
    | [] => s
    | c :: cs => copyTable c.1 c.2 (updDev s fun d => { d with logCopies := cs })
  | e :: es =>
    let s1 := updDev s fun d => { d with persistQ := es, persistLost := 0 }
    let lost : LogEnt := { seq := e.seq, time := s.dev.time, code := 0x0109, sev := 1, part := 0xFF
                           data := mkResult [(0, 1, 4), (2, 2, 0x02), (4, 1, 0xFF), (5, 1, 0xFF), (6, 1, 0xFF), (28, 4, s.dev.persistLost)] }
    plogAppend e (if 0 < s.dev.persistLost then plogAppend lost s1 else s1)

/-- PERSISTENT_LOG_APPEND (R471). -/
def execPersistentLogAppend (s : State) : Host.Outcome State Fault Refusal := live s (persistAppend s)

end Sys2Proof.Machine
end

