-- ==== Sys2Proof/Machine/Broadcast.lean ====
section
/-! DEFINITION. The cluster broadcast bus (R114, R168), and the trap of a sequencer (R121) with its rotation points (R398). -/

namespace Sys2Proof.Machine

/-! ### The broadcast bus -/

/-- The broadcast VLDs that a core has dispatched and not started, in stream order. -/
def bcastOps (k : Core) : List MOp := k.ops.filter fun p => isBcast p.word && !p.started

/-- The bound cores of a sequencer that are not FAULTED, lowest logical core index first. -/
def bcastCores (s : State) (dc n : Nat) : List Nat := (streamCores s dc n).filter fun c => (getCore s c).st != .faulted

/-- Whether the `i`-th broadcast VLD that waits in the cores of a sequencer is ready: dispatched by each of them, its interlocks clear (R114). The cores
run one stream and every one of them starts it with the others, so it is the same macro-op in each. -/
def bcastReadyAt (s : State) (cs : List Nat) (i : Nat) : Bool :=
  !cs.isEmpty && cs.all fun c =>
    match (bcastOps (getCore s c))[i]? with
    | some p => opReady (getCore s c) p && coreLive s c
    | none => false

/-- The first broadcast VLD of a sequencer that is ready, even ahead of an earlier one that is not (R105). -/
def bcastIdx (s : State) (dc n : Nat) : Option Nat := (List.range 8).find? (bcastReadyAt s (bcastCores s dc n))

/-- Whether a sequencer has a broadcast VLD ready. -/
def bcastReady (s : State) (dc n : Nat) : Bool := (bcastIdx s dc n).isSome

/-- Whether the bus of a cluster carries a broadcast VLD. -/
def busTaken (s : State) (dc : Nat) : Bool :=
  (cluCores s dc).any fun c => (getCore s c).ops.any fun p => isBcast p.word && p.started

/-- The sequencer that the bus takes next: round-robin after the one served last (R168). -/
def busNext (s : State) (dc : Nat) : Option Nat :=
  ((List.range 4).map fun i => ((getClu s dc).busLast + 1 + i) % 4).find? fun n => bcastReady s dc n

/-- The fault of a broadcast VLD taken by each of its cores (R269). DESIGN CHOICE: what R269 says of BUS_ERROR holds of a PAGE_FAULT or NOT_LOCAL
found when the one read is translated: every core of the stream takes it, where R114 does not say which do. -/
def bcastFault (cs : List (Nat × Nat)) (code addr : Nat) (s : State) : State :=
  forEach cs (fun s c =>
    match findOp (getCore s c.1) c.2 with
    | some p => opFault c.1 p code addr s
    | none => s) s

/-- The translations of the governing core's source (R101, R114, R195): the macro-op with them, or the code and address of a failure. -/
def bcastXl (dc : Nat) (p : MOp) : List Nat → State → State × MOp × Option (Nat × Nat)
  | [], s => (s, p, none)
  | pg :: pgs, s =>
    let va := pg * 0x1_0000
    let r := xlNow (.cluster dc) (dcPart s dc) va s
    match r.2 with
    | .fault => (r.1, p, some (fcPageFault, pageAddr p pg))
    | .busError a => (r.1, p, some (fcBusError, a))
    | .ok t =>
      if inOwnTarn r.1 dc (t.at va) then bcastXl dc { p with xl := smapInsert p.xl pg (t.at va) } pgs r.1
      else (r.1, p, some (fcNotLocal, pageAddr p pg))

/-- One piece delivered: the governing core's bytes at its DC in every core of the stream (R114, R168); `cs` gives the cores, each with its macro-op. -/
def bcastPiece (cs : List (Nat × Nat)) (x : Piece) (s : State) : State × Option Nat :=
  match paLoc s x.far with
  | none => (s, some x.far)
  | some l =>
    let r := memLoad l x.n 1 s
    match r.2.1 with
    | some e => (r.1, some (locPa r.1 e))
    | none => (forEach cs (fun s c =>
        match findOp (getCore s c.1) c.2 with
        | none => s
        | some p =>
          let w := spmPut c.1 x.loc r.2.2 (countAct (lciDc c.1) akSpm 1 s)
          match w.2 with
          | some e => opFault c.1 p fcSpmUnc e w.1
          | none => w.1) r.1, none)

/-- Pieces delivered in order, stopping at a word in error. -/
def bcastPieces (cs : List (Nat × Nat)) : List Piece → State → State × Option Nat
  | [], s => (s, none)
  | x :: xs, s =>
    let r := bcastPiece cs x s
    match r.2 with
    | none => bcastPieces cs xs r.1
    | some e => (r.1, some e)

/-- The bus takes a broadcast VLD (R114, R168). -/
def bcastRun (dc : Nat) (cs : List (Nat × Nat)) (p : MOp) (s : State) : State :=
  let x := bcastXl dc p (farPages p) s
  match x.2.2 with
  | some f => bcastFault cs f.1 f.2 x.1
  | none =>
    let y := bcastPieces cs (formPieces x.2.1) x.1
    match y.2 with
    | some e => bcastFault cs fcBusError e y.1
    | none => forEach cs (fun s c => updOp c.1 c.2 (fun q => { q with started := true, formed := true }) s) y.1

/-- BROADCAST_VLD_START (R168): due when the bus is free and this sequencer's turn has come. -/
def bcastStart (dc n : Nat) (s : State) : State :=
  if busTaken s dc || busNext s dc != some n then s else
  match bcastIdx s dc n with
  | none => s
  | some i =>
    let cs := (bcastCores s dc n).filterMap fun c => ((bcastOps (getCore s c))[i]?).map fun p => (c, p.id)
    match cs with
    | [] => s
    | g :: gs =>
      match findOp (getCore s g.1) g.2 with
      | none => s
      | some p => bcastRun dc (g :: gs) p (updClu s dc fun k => { k with busLast := n })

/-- BROADCAST_VLD_START (R168). -/
def execBroadcastVldStart (dc seq : Nat) (s : State) : Host.Outcome State Fault Refusal := live s (bcastStart dc seq s)

/-! ### Traps (R121) -/

/-- Whether every bound core has reached the TRP: it has trapped, waits idle there, or is FAULTED. -/
def allAtTrp (s : State) (dc n : Nat) : Bool :=
  (streamCores s dc n).all fun c =>
    let k := getCore s c
    match k.st, k.hold with
    | .faulted, _ => true
    | .trapped, _ => true
    | .running, some (.trp _ _ false) => true
    | _, _ => false

/-- The cores of a sequencer that are TRAPPED. -/
def trappedCores (s : State) (dc n : Nat) : List Nat :=
  (boundCores s dc n).filter fun c => (getCore s c).st == .trapped

/-- The stream goes on after a trap (R121): the cores return to RUNNING and the sequencer issues again. -/
def resumeStream (dc n : Nat) (s : State) : State :=
  let s1 := forEach (streamCores s dc n) (fun s c => updCore s c fun k =>
    match k.hold with
    | some (.trp ..) => { k with hold := none, st := if k.st = .trapped then .running else k.st }
    | _ => k) s
  updSeq s1 dc n fun q => { q with trp := none, st := .running }

/-! ### Rotation points (R398) -/

/-- The accepted compute values of a stack's sites, in eighths of a degree. -/
def stackTemps (s : State) (k : Nat) : List Int := (List.range 48).map fun i => (smapGet {} (getSite s k i).layers 0).accepted

/-- Whether some site of a stack has a thermal factor in force (R389, R390). -/
def anyFactor (s : State) (k : Nat) : Bool :=
  (List.range 48).any fun i => decide (0 < (getSite s k i).level) || (getSite s k i).distrust

/-- Whether the heat of a partition calls for an advance: more than 6 °C between its hottest and coolest site, or a factor in force. -/
def rotationHot (s : State) (q : Nat) : Bool :=
  let ts := (partStacks s q).flatMap (stackTemps s)
  match ts with
  | [] => false
  | t :: ts => decide (48 < ts.foldl max t - ts.foldl min t) || (partStacks s q).any (anyFactor s)

/-- The count fixed for rotation point `i` of a partition (R398): taken as it stands when another stream has fixed it, else advanced where
the heat calls for it and 1 s has passed since the last advance. -/
def fixRotation (q i n : Nat) (oneSec : Bool) (s : State) : State × Nat :=
  let rots := (getPart s q).rots
  match rots[i]? with
  | some r => (s, r)
  | none =>
    let last := rots.getLast?.getD 0
    let r := if rotationHot s q && oneSec then (last + 1) % n else last
    (updPart s q fun p => { p with rots := p.rots ++ [r] }, r)

/-- A rotation point reached (R398): A15 = r × A14 in every bound core, and the stream resumes. -/
def rotate (dc n units : Nat) (oneSec : Bool) (s : State) : State :=
  match dcPart s dc with
  | none => s
  | some q =>
    let x := fixRotation q (getSeq s dc n).rotIdx units oneSec s
    let s1 := updSeq x.1 dc n fun k => { k with rotIdx := k.rotIdx + 1 }
    resumeStream dc n <| forEach (boundCores s1 dc n) (fun s c => updCore s c fun k =>
      { k with areg := smapSet 0 k.areg 15 (BitVec.ofNat 48 x.2 * smapGet 0 k.areg 14) }) s1

/-- TRAP_REACHED (R121, R398): the sequencer enters TRAPPED and one event is raised; codes 0xC001 to 0xC0FF are rotation points. -/
def trapReached (dc n : Nat) (oneSec : Bool) (s : State) : State :=
  let q := getSeq s dc n
  match q.st, q.trp with
  | .running, some (code, addr) =>
    if allAtTrp s dc n then
      let s1 := reportFrom (.ctrl dc) 0x0102 0 (scopeOf (dcPart s dc))
        (mkResult [(0, 2, dc), (2, 1, n), (4, 2, code), (8, 4, (trappedCores s dc n).length), (12, 4, (addr - q.start) / 8)])
        (updSeq s dc n fun q => { q with st := .trapped })
      if 0xC001 ≤ code ∧ code ≤ 0xC0FF then rotate dc n (code - 0xC000) oneSec s1 else s1
    else s
  | _, _ => s

/-- TRAP_REACHED (R121); `oneSec`: 1 s has passed since the last advance of the rotation count (R398). -/
def execTrapReached (dc seq : Nat) (oneSec : Bool) (s : State) : Host.Outcome State Fault Refusal :=
  live s (trapReached dc seq oneSec s)

end Sys2Proof.Machine
end

