-- ==== Sys2Proof/Machine/HostRun.lean ====
section
/-! DEFINITION. The host's commands on clusters: translations, registers, streams and spring sequences (R312, R317 to R320, R430). -/

namespace Sys2Proof.Machine

/-- The references of a die-and-cluster field at the start of the parameters (R308, R312). -/
def dcRef (a : Nat) (c : Cmd) (s : State) : List (Nat × Bool × Nat) :=
  let v := c.p 0 2
  [(32, decide (2 ^ 11 ≤ v), 2), (32, !(dcOk v && dcPart s v == apPart s a), 5)]

/-! ### XLAT_INVAL (R197, R312) -/

/-- XLAT_INVAL queued in every unit of the partition: its clusters', and the I/O dies'. -/
def invalRun (a : Nat) (c : Cmd) (s : State) : State :=
  match apPart s a with
  | none => s
  | some q =>
    let what := invWhat (c.p 0 8)
    let s1 := startCmd a 0 s
    let s2 := forEach (partClus s1 q) (fun s dc => queueInv (.cluster dc) what none (some a) s) s1
    forEach (List.range 3) (fun s k => queueInv (.portDie k) what (some q) (some a) s) (queueInv .leadIo what (some q) (some a) s2)

/-- XLAT_INVAL (R312). -/
def execXlatInval (ap : Nat) (s : State) : Host.Outcome State Fault Refusal :=
  live s (cmdRun ap 0x0054
    (fun c _ => firstRef [(32, natBits (c.p 0 8) 15 1 != 0 || natBits (c.p 0 8) 63 48 != 0, 2)])
    (partIn ap [.ready, .running, .draining]) (invalRun ap) s)

/-! ### Accesses to a cluster control port (R152, R177, R320) -/

/-- Meridian's way to the control port of a cluster, for a write: the code of what keeps it out. The fabric may not reach the port (R152), and one that
takes no writes answers RESET_ABORT (R177). -/
def ctrlReach (dc : Nat) (s : State) : State × Option Nat :=
  let x := crossNow .control .leadIo (.ctrl dc) 0 s
  (x.1, if !x.2 then some fcBusError else if !cluWritable x.1 dc then some fcResetAbort else none)

/-- What a command does at the control port of a cluster; `addr` is the address concerned where it is kept out. -/
def atCtrl (a dc addr : Nat) (go : State → State) (s : State) : State :=
  let r := ctrlReach dc s
  match r.2 with
  | some code => failCmd a code addr 0 r.1
  | none => go r.1

/-- The device physical address of an offset of a cluster control block (R187). -/
def cluPa (dc off : Nat) : Nat := paClu + dcDie dc * 0x10_0000 + dcClu dc * 0x1000 + off

/-! ### REG_READ and REG_WRITE (R320) -/

/-- The register that a control-block address names, in a cluster of the aperture's partition. -/
def regPlace (s : State) (a x : Nat) : Option (Nat × Nat) :=
  match paDecode s x with
  | .clu dc off => if off % 8 = 0 ∧ dcPart s dc = apPart s a then some (dc, off) else none
  | _ => none

/-- The count of REG_READ as used. -/
def regCount (c : Cmd) : Nat := clampTo 1 4 (c.p 8 4)

/-- REG_READ's values (R320); a cluster in reset answers RESET_ABORT (R177). -/
def regReadRun (a : Nat) (c : Cmd) (s : State) : State :=
  match regPlace s a (c.p 0 8) with
  | none => s
  | some (dc, off) =>
    let x := overFabric .readReq .leadIo (.ctrl dc) .readResp (c.p 0 8) (8 * regCount c) (fun s =>
      if (getClu s dc).pwr.inReset then (s, .resetAbort, c.p 0 8) else (s, .commit, 0)) s
    if x.2.1 = .commit then finish a stOk (mkResult ((List.range (regCount c)).map fun i => (8 * i, 8, cluRead x.1 dc (off + 8 * i)))) x.1
    else failCmd a x.2.1.fault x.2.2 0 x.1

/-- REG_READ (R320). -/
def execRegRead (ap : Nat) (s : State) : Host.Outcome State Fault Refusal :=
  live s (cmdRun ap 0x0055
    (fun c s => firstRef [(32, (regPlace s ap (c.p 0 8)).isNone, 5),
      (40, (match regPlace s ap (c.p 0 8) with | some (_, off) => decide (0x1000 < off + 8 * regCount c) | none => false), 5)])
    (partIn ap [.config, .ready, .running, .draining, .salvage]) (regReadRun ap) s)

/-- The registers that REG_WRITE may write (R320), and the counters that take only zero. -/
def regAny : List Nat := [0x008, 0x048, 0x088, 0x0C8, 0x100, 0x240, 0x248, 0x348]
def regZero : List Nat :=
  [0x020, 0x060, 0x0A0, 0x0E0, 0x180, 0x188, 0x190, 0x198, 0x1A0, 0x218, 0x258, 0x298, 0x2A0, 0x300, 0x308, 0x358, 0x360, 0x368, 0x388]

/-- Whether a register ignores a write (R137, R199, R252, R311, R320). -/
def regIgnores (s : State) (dc off v : Nat) : Bool :=
  let m := getDma s dc
  if off = 0x298 ∨ off = 0x2A0 then !kvFitted s
  else if off = 0x100 then (getClu (spmPwrWrite dc v (updClu s dc fun k => { k with spmIgn := false })) dc).spmIgn
  else if off = 0x248 ∧ natBit v 0 then m.st == .running || m.st == .waiting || !partRunning s dc
  else false

/-- REG_WRITE (R320): a cluster that takes no writes answers RESET_ABORT (R177). -/
def regWriteRun (a : Nat) (c : Cmd) (s : State) : State :=
  match regPlace s a (c.p 0 8) with
  | none => s
  | some (dc, off) =>
    let v := c.p 8 8
    atCtrl a dc (c.p 0 8) (fun s =>
      let s1 := cluWriteUnit dc off v s
      if regIgnores s dc off v then finish a stState (stateResult s (apPart s a) Config.ignoredObstacle) s1
      else finish a stOk (mkResult []) s1) s

/-- REG_WRITE (R320). -/
def execRegWrite (ap : Nat) (s : State) : Host.Outcome State Fault Refusal :=
  live s (cmdRun ap 0x0056
    (fun c s => match regPlace s ap (c.p 0 8) with
      | none => some (32, 5)
      | some (_, off) =>
        if regAny.contains off then none
        else if regZero.contains off then (if c.p 8 8 = 0 then none else some (40, 5))
        else some (32, 5))
    (partIn ap [.ready, .running, .draining]) (regWriteRun ap) s)

/-! ### STREAM_START (R96, R317, R430) -/

/-- The references of STREAM_START: a misaligned SEQ_START is reported at offset 8, as R317 says. -/
def startRefs (a : Nat) (c : Cmd) (s : State) : Option (Nat × Nat) :=
  let e := firstRef (dcRef a c s ++ [(34, decide (3 < c.p 2 1), 5), (35, decide (1 < c.p 3 1), 2), (40, c.p 8 8 % 8 != 0, 5),
    (40, natBits (c.p 8 8) 63 48 != 0, 2), (48, natBits (c.p 16 8) 63 48 != 0, 2)])
  if e = some (40, 5) then some (8, 5) else e

/-- The cores that STREAM_START names (R317). -/
def namedCores (c : Cmd) : List Nat :=
  (List.range 1024).filterMap fun i =>
    if natBit (c.p 24 4) (i / 32) && natBit (c.p 28 4) (i % 32) then some (c.p 0 2 * 1024 + i) else none

/-- `CORE_BIND` of each named core written (R96): the state, how many took it and how many ignored it. -/
def bindCores (n : Nat) (cs : List Nat) (s : State) : State × Nat × Nat :=
  cs.foldl (fun (acc : State × Nat × Nat) c =>
    if !coreLive acc.1 c then (acc.1, acc.2.1, acc.2.2 + 1)
    else
      let idle := (getCore acc.1 c).st == .idle
      (updCore acc.1 c (bindWrite (4 + n)), acc.2.1 + bit idle, acc.2.2 + bit (!idle))) (s, 0, 0)

/-- The bytes of a stream (R430), read by Meridian over the fabric (R152), where they all translate into the cluster's own slice; else the address of the first that does not. -/
def streamBytes (dc : Nat) : List (Nat × Nat) → State → State × (Nat ⊕ List Byte)
  | [], s => (s, .inr [])
  | (va, n) :: rest, s =>
    let r := xlNow (.cluster dc) (dcPart s dc) va s
    match r.2 with
    | .ok t =>
      match paLoc r.1 (t.at va) with
      | none => (r.1, .inl va)
      | some _ =>
        if !inOwnTarn r.1 dc (t.at va) then (r.1, .inl va) else
        let y := farLoad .leadIo 7 [(t.at va, n)] r.1
        match y.2.1 with
        | some _ => (y.1, .inl va)
        | none =>
          let z := streamBytes dc rest y.1
          match z.2 with
          | .inl e => (z.1, .inl e)
          | .inr bs => (z.1, .inr (y.2.2 ++ bs))
    | _ => (r.1, .inl va)

/-- P1 extended by a stream (R429, R430), unless the log has it. -/
def measureStream (q dc n : Nat) (bs : List Byte) (s : State) : State :=
  let digest := bytesAt (sha384 bs) 0 48
  let held := (getPart s q).plog.any fun e =>
    fieldAt e.bytes 1 1 == 6 && bytesAt e.bytes 16 48 == digest && fieldAt e.bytes 8 4 == bs.length
  if held then s
  else extendPart q true 6 0 (leBytes 2 dc ++ leBytes 1 n ++ [0] ++ leBytes 4 bs.length) digest s

/-- The sequencer and its cores start (R96, R118, R137). -/
def seqStart (dc n start limit : Nat) (s : State) : State :=
  let s1 := updSeq s dc n fun q => { start := start, limit := limit, st := .running, pc := start, issued := q.issued, code := q.code
                                     rotIdx := q.rotIdx, waitPwr := (getClu s dc).spmBusy }
  forEach (boundCores s1 dc n) (fun s c => updCore s c fun k =>
    if k.st = .idle then { k with st := .running, adv := [], loops := [], hold := none } else k) s1

/-- STREAM_START in its steps (R317, R430). -/
def streamStartRun (a : Nat) (c : Cmd) (s : State) : State :=
  let dc := c.p 0 2
  let n := c.p 2 1
  let start := c.p 8 8
  let limit := c.p 16 8
  atCtrl a dc (cluPa dc (0x40 * n)) (fun s =>
  let st := (getSeq s dc n).st
  if !(st == .idle || st == .ended || st == .faulted) then finish a stState (stateResult s (apPart s a) 1) s
  else
    let b := bindCores n (namedCores c) s
    if (boundCores b.1 dc n).isEmpty then finish a stState (stateResult s (apPart s a) 2) b.1
    else if 48 * mib < limit - start then failCmd a fcProgramRange start 0 b.1
    else
      let m := streamBytes dc (cutPages start (limit - start)) b.1
      match m.2 with
      | .inl e => failCmd a fcProgramRange e 0 m.1
      | .inr bs =>
        let s1 := match apPart s a with | some q => measureStream q dc n bs m.1 | none => m.1
        let s2 := seqStart dc n start limit s1
        let s3 := if c.p 3 1 = 1 then dmaStart dc s2 else s2
        finish a stOk (mkResult [(0, 4, b.2.1), (4, 4, b.2.2)]) s3) s

/-- STREAM_START (R317). -/
def execStreamStart (ap : Nat) (s : State) : Host.Outcome State Fault Refusal :=
  live s (cmdRun ap 0x0060 (startRefs ap) (partIn ap [.running]) (streamStartRun ap) s)

/-! ### STREAM_CTRL (R318) -/

/-- A trapped stream ends as at END (R120, R318): its cores complete and return to IDLE. -/
def seqEndTrapped (dc n : Nat) (s : State) : State :=
  let s1 := forEach (streamCores s dc n) (fun s c => updCore s c fun k =>
    if k.st = .faulted then k else { k with st := .running, queue := [], hold := some .endOp }) s
  checkSeqEnd dc n (updSeq s1 dc n fun q => { q with st := .running, trp := none, ended := true, buf := none })

/-- STREAM_CTRL (R318). -/
def streamCtrlRun (a : Nat) (c : Cmd) (s : State) : State :=
  let dc := c.p 0 2
  let n := c.p 2 1
  let act := c.p 3 1
  atCtrl a dc (cluPa dc (0x40 * n)) (fun s =>
  let st := (getSeq s dc n).st
  if st == .trapped || (act == 2 && st == .running) then
    finish a stOk (mkResult []) (match act with
      | 0 => resumeStream dc n s
      | 1 => seqEndTrapped dc n s
      | _ => seqAbort dc n s)
  else finish a stState (stateResult s (apPart s a) 0) s) s

/-- STREAM_CTRL (R318). -/
def execStreamCtrl (ap : Nat) (s : State) : Host.Outcome State Fault Refusal :=
  live s (cmdRun ap 0x0061
    (fun c s => firstRef (dcRef ap c s ++ [(34, decide (3 < c.p 2 1), 5), (35, decide (2 < c.p 3 1), 5)]))
    (partIn ap [.running, .draining]) (streamCtrlRun ap) s)

/-! ### SPRING_CTRL (R319) -/

/-- An operand slot translated by Meridian (R319): its physical address, or the code and address of a failure. -/
def springSlot (dc q va : Nat) (s : State) : State × (Nat × Nat ⊕ Nat) :=
  let r := xlNow .leadIo (some q) va s
  match r.2 with
  | .fault => (r.1, .inl (fcPageFault, va))
  | .busError e => (r.1, .inl (fcBusError, e))
  | .ok t =>
    match paLoc r.1 (t.at va) with
    | some l => if t.spr && locColumnLocal r.1 l && locDc l == dc then (r.1, .inr (t.at va)) else (r.1, .inl (fcPermission, va))
    | none => (r.1, .inl (fcPermission, va))

/-- The six slots of a descriptor translated in order; unused ones stay. -/
def springSlots (dc q : Nat) (d : List Byte) : List Nat → State → State × (Nat × Nat ⊕ List Byte)
  | [], s => (s, .inr d)
  | j :: js, s =>
    if slotFmt d j = 0 then springSlots dc q d js s else
    let r := springSlot dc q (slotVa d j) s
    match r.2 with
    | .inl e => (r.1, .inl e)
    | .inr pa =>
      let w := dq d (32 + 8 * j) / 2 ^ 48 * 2 ^ 48 + pa
      springSlots dc q (d.take (32 + 8 * j) ++ leBytes 8 w ++ d.drop (40 + 8 * j)) js r.1

/-- A submission by the host (R319): the descriptor, read over the fabric, at a virtual address of the column's slice, its slots translated. -/
def springSubmit (a dc q va : Nat) (s : State) : State :=
  let r := xlRange .leadIo (some q) false false (cutPages va 128) s
  match r.2 with
  | .bad code e => failCmd a code e 0 r.1
  | .ok ps =>
    if ownSide r.1 dc ps != some .tarn then failCmd a fcNotLocal va 0 r.1
    else
      let y := farLoad .leadIo 5 ps r.1
      match y.2.1 with
      | some e => failCmd a fcBusError e 0 y.1
      | none =>
        let x := if sdKind y.2.2 = skKvatt then (y.1, .inr y.2.2) else springSlots dc q y.2.2 (List.range 6) y.1
        match x.2 with
        | .inl e => failCmd a e.1 e.2 0 x.1
        | .inr d => finish a stOk (mkResult [(0, 2, sdTag d)]) (sprQueue dc d ((ps.head?.map (·.1)).getD 0 + 16) x.1)

/-- SPRING_CTRL (R319): a submission only in RUNNING. -/
def springCtrlRun (a : Nat) (c : Cmd) (s : State) : State :=
  match apPart s a with
  | none => s
  | some q =>
    let dc := c.p 0 2
    atCtrl a dc (cluPa dc 0x348) (fun s =>
      if c.p 3 1 = 1 then finish a stOk (mkResult []) (sprAbort dc (fun _ => true) s)
      else if (getPart s q).st ≠ .running then finish a stState (stateResult s (some q) 0) s
      else springSubmit a dc q (natBits (c.p 8 8) 47 0) s) s

/-- SPRING_CTRL (R319). -/
def execSpringCtrl (ap : Nat) (s : State) : Host.Outcome State Fault Refusal :=
  live s (cmdRun ap 0x0062 (fun c s => firstRef (dcRef ap c s ++ [(35, decide (1 < c.p 3 1), 5), (40, c.p 3 1 == 0 && natBits (c.p 8 8) 63 48 != 0, 5)]))
    (partIn ap [.running, .draining]) (springCtrlRun ap) s)

end Sys2Proof.Machine
end

