-- ==== Sys2Proof/Machine/MemCmds.lean ====
section
/-! DEFINITION. Accesses that reach the Tarn and the DRAM, their fills, their corrections, the patrol scrub and refresh (R186, R203 to R211,
R266, R270, R225, R226). -/

namespace Sys2Proof.Machine

/-- A packet of a kind that stands at a column memory port, with the location it names. -/
def atColumn (s : State) (pid : Nat) (kind : PktKind) : Option (Nat × Pkt) :=
  match findPkt s pid with
  | none => none
  | some p =>
    match p.dst, paLoc s p.addr with
    | .column _, some l => if p.kind = kind ∧ arrived s p ∧ !bankHeld s l then some (l, p) else none
    | _, _ => none

/-- A write applied to its word and answered (R186, R208 to R211, R268). -/
def writeNow (l : Nat) (p : Pkt) (s : State) : State :=
  let r := memStore l p.data false s
  dropPkt p.id (match r.2 with
    | none => answerPkt p .commit 0 r.1
    | some e => answerPkt p .busError (locPa r.1 e) r.1)

/-- A write at a column port: a first write into a page whose die has no free fill entry waits and is counted (R211). -/
def memWrite (pid : Nat) (s : State) : State :=
  match atColumn s pid .write with
  | none => s
  | some (l, p) =>
    if p.waitFill then s
    else if fillBusy s l then
      updClu (updNet s fun t => { t with pkts := mapIf (fun q => q.id == pid) (fun q => { q with waitFill := true }) t.pkts })
        (locDc l) fun k => { k with fillWait := k.fillWait + 1 }
    else writeNow l p s

/-- MEMORY_WRITE_ARRIVE (R186). -/
def execMemoryWriteArrive (pid : Nat) (s : State) : Host.Outcome State Fault Refusal := live s (memWrite pid s)

/-- A write that waited takes the entry that has become free (R211). -/
def fillWaited (pid : Nat) (s : State) : State :=
  match atColumn s pid .write with
  | none => s
  | some (l, p) => if p.waitFill && !fillBusy s l then writeNow l p s else s

/-- FILL_ENTRY_WAIT (R211). -/
def execFillEntryWait (pid : Nat) (s : State) : Host.Outcome State Fault Refusal := live s (fillWaited pid s)

/-- A read at a column port, after the symbol errors that upsets have left in the words it reads (R208, R263, R269); `lost` where the word of
the valid store that covers them is beyond its code (R206). -/
def memRead (pid : Nat) (upset : List (Nat × Nat × Nat × Bool)) (lost : Bool) (s : State) : State :=
  match atColumn s pid .readReq with
  | none => s
  | some (l, p) =>
    let s0 := if lost then storeFail l s else s
    let s1 := forEach upset (fun s u => if u.1 = l / 128 then strike u.1 [u.2] s else s) s0
    let r := memLoad l p.len 0 s1
    dropPkt pid (match r.2.1 with
      | some e => respondPkt p .busError (locPa r.1 e) [] r.1
      | none => respondPkt p .commit 0 r.2.2 r.1)

/-- MEMORY_READ_ARRIVE (R208). -/
def execMemoryReadArrive (pid : Nat) (upset : List (Nat × Nat × Nat × Bool)) (lost : Bool) (s : State) : Host.Outcome State Fault Refusal :=
  live s (memRead pid upset lost s)

/-- DRAM_FILL_COMPLETE (R210): a page, by location / 4096, whose entry is in use. -/
def execDramFillComplete (page : Nat) (s : State) : Host.Outcome State Fault Refusal :=
  live s (if s.mem.fills.any fun f => f.page == page then fillEnd page s else s)

/-- CORRECTED_WRITEBACK (R266): dropped where a write has intervened, which took the word off the list. -/
def execCorrectedWriteback (word : Nat) (s : State) : Host.Outcome State Fault Refusal :=
  live s (if s.mem.writeBack.contains word && !bankHeld s (word * 128) then
    resettle [word] (updMem s fun m => { m with flips := smapErase m.flips word, writeBack := setDel m.writeBack word })
  else s)

/-! ### Patrol scrub (R270) -/

/-- The first word, as device physical address / 128, at or after `at_` that lies in one of the granules of `n` words that begin at the addresses
`as_` / 128. -/
def nextWord (n at_ : Nat) (as_ : List Nat) : Option Nat :=
  (as_.filter fun a => decide (at_ < a + n)).foldl (fun m a =>
    match m with
    | some x => some (min x (max at_ a))
    | none => some (max at_ a)) none

/-- The valid pages of a memory die, or the valid granules of a Tarn die (`die` ≥ 4), by address / 128: fills are skipped. -/
def scrubGroups (s : State) (stack die : Nat) : List Nat :=
  if die < 4 then
    (s.mem.dramValid.filter fun p => dcDie (locDc (p * 4096)) == stack && locMDie (p * 4096) == die).map fun p => locPa s (p * 4096) / 128
  else (s.mem.tarnValid.filter fun g => dcDie (locDc (g * 512)) == stack).map fun g => locPa s (g * 512) / 128

/-- Whether a stack's memory is powered (R270, R405, R406, R410): its rails come up in boot step 4, and SAFE-TALK takes them down. -/
def memPowered (s : State) (stack : Nat) : Bool :=
  !(getStk s stack).memFailed && s.dev.st != .safeTalk && !(s.dev.st == .boot && decide (s.dev.bootStep ≤ 4))

/-- Where the scrub of a die stands: the next word, and what it does to the state to move there. -/
def scrubAt (s : State) (stack die : Nat) : Nat :=
  if die < 4 then (getMDie s stack die).scrubAt else (getStk s stack).tScrubAt

/-- The scrub of a die moved on. -/
def scrubTo (stack die w : Nat) (s : State) : State :=
  if die < 4 then updMDie s stack die fun d => { d with scrubAt := w }
  else updStk s stack fun k => { k with tScrubAt := w }

/-- A pass of a die ends: the stack's DRAM passes are those that every fitted memory die has completed. -/
def scrubPassed (stack die : Nat) (s : State) : State :=
  if die < 4 then
    let s1 := updMDie s stack die fun d => { d with scrubAt := 0, passes := d.passes + 1 }
    let n := ((List.range s.mdies).map fun d => (getMDie s1 stack d).passes).foldl min (getMDie s1 stack die).passes
    updStk s1 stack fun k => { k with dpass := n % 2 ^ 32 }
  else updStk s stack fun k => { k with tScrubAt := 0, tpass := (k.tpass + 1) % 2 ^ 32 }

/-- The scrub reads its next valid word in address order (R266, R267, R270), or ends its pass where none is left. -/
def scrubRead (stack die : Nat) (upset : List (Nat × Nat × Bool)) (s : State) : State :=
  let k := getStk s stack
  if !k.scrubEn || !memPowered s stack || 6 ≤ stack || (die < 4 && s.mdies ≤ die) then s else
  match nextWord (if die < 4 then 32 else 4) (scrubAt s stack die) (scrubGroups s stack die) with
  | none => scrubPassed stack die s
  | some a =>
    match paLoc s (a * 128) with
    | none => s
    | some l =>
      if bankHeld s l then s
      else scrubTo stack die (a + 1) (readWord (l / 128) 9 (strike (l / 128) upset s)).1

/-- PATROL_SCRUB_READ (R270): `die` names a memory die, or the Tarn die from 4 on. -/
def execPatrolScrubRead (stack die : Nat) (upset : List (Nat × Nat × Bool)) (s : State) : Host.Outcome State Fault Refusal :=
  live s (scrubRead stack die upset s)

/-! ### Refresh (R203, R205, R226) -/

/-- A refresh falls due on a bank: it is done at once, or postponed where a running step holds the bank; a bank's fifth within one step
pre-empts the step, unless the banks are being refreshed as it falls due (R226). -/
def refresh (stack mdie column bank : Nat) (s : State) : State :=
  let dc := stack * 256 + column
  match (getClu s dc).spr.running.find? fun t => t.mdie == mdie && t.banks.contains bank with
  | none => s
  | some t =>
    let n := smapGet 0 t.dues bank + 1
    let stop := n == 5 && !t.suspended
    let t' := { t with dues := smapSet 0 t.dues bank n, suspended := t.suspended || stop }
    let s1 := updClu s dc fun k => { k with spr := { k.spr with
      running := mapIf (fun x => x.mdie == mdie) (fun _ => t') k.spr.running
      seqs := if stop then mapIf (fun q => q.id == t.seq) (fun q => { q with preempt := sat16 (q.preempt + 1) }) k.spr.seqs
        else k.spr.seqs } }
    if stop then updMDie s1 stack mdie fun d => { d with preempt := d.preempt + 1 } else s1

/-- REFRESH_DUE (R203). -/
def execRefreshDue (stack mdie column bank : Nat) (s : State) : Host.Outcome State Fault Refusal :=
  live s (refresh stack mdie column bank s)

end Sys2Proof.Machine
end

