-- ==== Sys2Proof/Machine/PartCmds.lean ====
section
/-! DEFINITION. The commands about partitions (R311, R314, R316, R428), and the ends of a drain (R311). -/

namespace Sys2Proof.Machine

/-! ### PART_CREATE and PART_DESTROY (R315, R316) -/

/-- The stacks and apertures that PART_CREATE names. -/
def createStacks (c : Cmd) : List Nat := (List.range 6).filter (natBit (c.p 0 1))
def createAps (c : Cmd) : List Nat := (List.range 16).filter (natBit (c.p 2 2))

/-- The references of PART_CREATE (R285, R312): masks that name at least one stack and one aperture, and no other thing. -/
def createRefs (c : Cmd) (_ : State) : Option (Nat × Nat) :=
  firstRef [(32, decide (64 ≤ c.p 0 1), 2), (32, c.p 0 1 == 0, 5), (34, natBit (c.p 2 2) 0, 2), (34, c.p 2 2 == 0, 5)]

/-- A set of numbers as a mask. -/
def maskOf (xs : List Nat) : Nat := xs.foldl (fun m k => m + 2 ^ k) 0

/-- The lowest partition number that is free (R316). -/
def freeNumber (s : State) : Nat := ((List.range 6).find? fun q => (getPart s q).st == .none).getD 0

/-- PART_CREATE's work in its order (R316, R366, R428). -/
def createRun (a : Nat) (c : Cmd) (s : State) : State :=
  let taken := (createStacks c).filter fun k => (getStk s k).part.isSome
  let aps := (createAps c).filter fun b => (getAp s b).part.isSome
  if !taken.isEmpty || !aps.isEmpty then finish a stState (stateResult s none (Config.inUseObstacle (maskOf taken) (maskOf aps))) s
  else if (createStacks c).any fun k => (getStk s k).unavailable then finish a stRefused (mkResult [(0, 1, 3)]) s
  else
    let q := freeNumber s
    let cl := min 12 (c.p 4 1)
    let s1 := forEach (createStacks c) (fun s k => updStk s k fun x => { x with clsize := cl, part := some q }) s
    let s2 := forEach (createAps c) (fun s b => updAp s b fun k => { k with part := some q }) s1
    let s3 := extendPart q false 3 c.opcode (cmdDetail c) (sha384 (echoParams c [(4, 1, cl)])) (updPart s2 q fun _ => {})
    let s4 := setPart q .config caCommand (forEach (partDcs s3 q) (cluCycle true) s3)
    finish a stOk (mkResult [(0, 1, q), (4, 1, cl)]) s4

/-- PART_CREATE (R316). -/
def execPartCreate (ap : Nat) (s : State) : Host.Outcome State Fault Refusal :=
  live s (cmdRun ap 0x0040 createRefs (devIn [.ready, .running, .draining]) (createRun ap) s)

/-- PART_DESTROY (R316): its reply follows the reset. -/
def execPartDestroy (ap : Nat) (s : State) : Host.Outcome State Fault Refusal :=
  live s (cmdRun ap 0x0041 (fun c s => firstRef [(32, decide (6 ≤ c.p 0 1) || (getPart s (c.p 0 1)).st == .none, 5)])
    (devIn [.ready, .running, .draining, .salvage])
    (fun c s => beginReset (c.p 0 1) (.destroy ap) (startCmd ap (c.p 0 1) s)) s)

/-! ### PART_CONFIG and PART_COMMIT (R311, R314) -/

/-- The settings of PART_CONFIG as used: `CLSIZE` in force, `CLU_SPM_PWR`, and the KV walker's registers, zero on M4. -/
def configKvw (s : State) (v : Nat) : Nat := if kvFitted s then bit (natBit v 0) + 2 ^ 40 * natBits v 47 40 else 0
def configTables (s : State) (v : Nat) : Nat :=
  if kvFitted s then natBits v 13 0 + 2 ^ 16 * natBits v 29 16 + 2 ^ 32 * min 9216 (natBits v 45 32) else 0

/-- The value of `CLSIZE` in force in a partition. -/
def partClsize (s : State) (q : Nat) : Nat := (getStk s (((partStacks s q).head?).getD 0)).clsize

/-- The references of PART_CONFIG (R314): the translation root lies in the partition's DRAM or Tarn. -/
def configRefs (a : Nat) (c : Cmd) (s : State) : Option (Nat × Nat) :=
  let v := c.p 8 8
  firstRef [(40, natBits v 11 1 != 0 || natBits v 63 48 != 0, 2),
    (40, !paInPart s ((apPart s a).getD 6) (natBits v 47 12 * 4096) 4096, 5)]

/-- One cluster configured by Meridian (R195, R252, R314). -/
def configClu (root spm kvw tables : Nat) (s : State) (dc : Nat) : State :=
  let s1 := kvwWrite dc 0x288 tables (kvwWrite dc 0x280 kvw (xlatRootWrite dc root s))
  if spm = (getClu s1 dc).spmPwr then s1 else spmPwrWrite dc spm s1

/-- Clusters configured in order, each over its control port, up to the first that takes no writes (R177): the code, and the address of its first
register. -/
def configClus (root spm kvw tables : Nat) : List Nat → State → State × Option (Nat × Nat)
  | [], s => (s, none)
  | dc :: dcs, s =>
    let r := ctrlReach dc s
    match r.2 with
    | some code => (r.1, some (code, cluPa dc 0x200))
    | none => configClus root spm kvw tables dcs (configClu root spm kvw tables r.1 dc)

/-- PART_CONFIG (R314, R428). A cluster that takes no writes ends it ABORTED, with the effects up to there (R177, R294). -/
def configRun (a : Nat) (c : Cmd) (s : State) : State :=
  match apPart s a with
  | none => s
  | some q =>
    let root := c.p 8 8
    let spm := c.p 1 1 % 64
    let kvw := configKvw s (c.p 16 8)
    let tables := configTables s (c.p 24 8)
    let cl := partClsize s q
    let r := configClus root spm kvw tables (partDcs s q) s
    match r.2 with
    | some (code, addr) => failCmd a code addr 0 r.1
    | none =>
      let f := fun (x : XUnit) => invalidate none (some q) x
      let s2 := updPart (forEach (List.range 3) (fun s k => updX s (.portDie k) f) (updX r.1 .leadIo f)) q fun p =>
        { p with root := natBits root 47 12 * 4096, rootEn := natBit root 0 }
      let echo := echoParams c [(0, 1, cl), (1, 1, spm), (16, 8, kvw), (24, 8, tables)]
      let differs := bit (min 12 (c.p 0 1) != cl)
      let res := bytesAt echo 0 32
      finish a stOk (res.take 31 ++ [(res.getD 31 0) ||| BitVec.ofNat 8 differs])
        (extendPart q false 3 c.opcode (cmdDetail c) (sha384 echo) s2)

/-- PART_CONFIG (R314). -/
def execPartConfig (ap : Nat) (s : State) : Host.Outcome State Fault Refusal :=
  live s (cmdRun ap 0x0042 (configRefs ap) (partIn ap [.config]) (configRun ap) s)

/-- PART_COMMIT (R311). -/
def execPartCommit (ap : Nat) (s : State) : Host.Outcome State Fault Refusal :=
  live s (cmdRun ap 0x0043 noRefs (partIn ap [.config]) (fun _ s =>
    match apPart s ap with
    | some q => finish ap stOk (mkResult []) (setPart q .ready caCommand s)
    | none => s) s)

/-! ### Drains (R311) -/

/-- PART_DRAIN: the partition enters DRAINING with a time limit; its reply follows READY. -/
def drainRun (a : Nat) (c : Cmd) (s : State) : State :=
  match apPart s a with
  | none => s
  | some q =>
    let ms := clampTo 1 600000 (c.p 0 4)
    updPart (setPart q .draining caCommand (startCmd a ms s)) q fun p => { p with drainMs := ms, drainAp := some a }

/-- PART_DRAIN (R311). -/
def execPartDrain (ap : Nat) (s : State) : Host.Outcome State Fault Refusal :=
  live s (cmdRun ap 0x0045 noRefs (partIn ap [.running]) (drainRun ap) s)

/-- The streams of a partition that have not finished. -/
def liveStreams (s : State) (q : Nat) : List (Nat × Nat) :=
  (partClus s q).flatMap fun dc => ((List.range 4).filter fun n =>
    let st := (getSeq s dc n).st
    st == .running || st == .trapped).map fun n => (dc, n)

/-- The DMA engines of a partition with a chain in progress. -/
def liveDmas (s : State) (q : Nat) : List Nat :=
  (partClus s q).filter fun dc => (getDma s dc).st == .running || (getDma s dc).st == .waiting

/-- The spring sequences of a partition that have not ended, by column; what waits to be accepted counts. -/
def liveSprings (s : State) (q : Nat) : Nat :=
  ((partClus s q).map fun dc => (getSpr s dc).seqs.length + (getSpr s dc).waiting.length).foldl (· + ·) 0

/-- The ports on which a partition has a link chain in progress. -/
def liveChains (s : State) (q : Nat) : List Nat :=
  (List.range 6).filter fun k => let c := smapGet {} (getPort s k).chains q; c.st == .running || c.st == .waiting

/-- A drain ends in READY, and PART_DRAIN is answered with what was aborted. -/
def drained (q cause streams chains seqs : Nat) (s : State) : State :=
  let p := getPart s q
  let s1 := updPart (setPart q .ready cause s) q fun p => { p with drainAp := none }
  match p.drainAp with
  | some a => finish a stOk (mkResult [(0, 4, p.drainMs), (4, 4, streams), (8, 4, chains), (12, 4, seqs)]) s1
  | none => s1

/-- PART_DRAIN_COMPLETE (R311): due once the last of the partition's work has finished. -/
def drainComplete (q : Nat) (s : State) : State :=
  let p := getPart s q
  if p.st = .draining ∧ p.resetting.isNone ∧ (liveStreams s q).isEmpty ∧ (liveDmas s q).isEmpty ∧ liveSprings s q = 0 ∧ (liveChains s q).isEmpty
  then drained q caDrained 0 0 0 s else s

/-- PART_DRAIN_COMPLETE (R311). -/
def execPartDrainComplete (q : Nat) (s : State) : Host.Outcome State Fault Refusal := live s (drainComplete q s)

/-- PART_DRAIN_EXPIRE (R311): the time limit expires, and the work is aborted. -/
def drainExpire (q : Nat) (s : State) : State :=
  let p := getPart s q
  if p.st = .draining ∧ p.resetting.isNone then
    let ss := liveStreams s q
    let ds := liveDmas s q
    let cs := liveChains s q
    let n := liveSprings s q
    let s1 := forEach ss (fun s x => seqAbort x.1 x.2 s) s
    let s2 := forEach ds (fun s dc => dmaHalt dc s) s1
    let s3 := forEach (partClus s2 q) (fun s dc => sprAbort dc (fun _ => true) s) s2
    let s4 := forEach cs (fun s k => updPort (endChain q s k) k fun p => { p with reqs := orphanReqs q p.reqs }) s3
    drained q caExpired ss.length (ds.length + cs.length) n s4
  else s

/-- PART_DRAIN_EXPIRE (R311). -/
def execPartDrainExpire (q : Nat) (s : State) : Host.Outcome State Fault Refusal := live s (drainExpire q s)

end Sys2Proof.Machine
end

