-- ==== Sys2Proof/Machine/Sync.lean ====
section
/-! DEFINITION. Windows (R144 to R147), barriers (R116, R117, R374), signals and flags (R117, R176). -/

namespace Sys2Proof.Machine

/-! ### Windows -/

/-- A window after an accepted WOP (R144). -/
def openWin (r : Region) (imm : Nat) (w : Win) : Win :=
  { w with
    base := spaceBase r.space + r.lo.toNat
    last := spaceBase r.space + r.hi.toNat - 1
    scope := natBits imm 3 2
    epoch := natBits imm 15 8
    isOpen := true
    held := false
    ranged := true }

/-- WOP (R144): the range, scope and epoch replaced in one step. -/
def execWop (lci : Nat) (s : State) : Host.Outcome State Fault Refusal :=
  live s (dispatchCtrl lci ocWop (fun e s => updCore s lci fun k =>
    updWin k (mwImm e.word % 4) (openWin (coreRegion k (mwDc e.word)) (mwImm e.word))) s)

/-- A window at the close point of a WCL (R147); one that is not open becomes held only if a WOP has ranged it. -/
def closeWin (w : Win) : Win :=
  if w.isOpen then { w with isOpen := false, closing := true, held := true }
  else { w with held := w.held || w.ranged }

/-- WCL (R147): the close point; dispatch waits while the window was open. -/
def execWcl (lci : Nat) (s : State) : Host.Outcome State Fault Refusal :=
  live s (dispatchCtrl lci ocWcl (fun e s => updCore s lci fun k =>
    let i := mwImm e.word % 4
    { updWin k i closeWin with hold := if (getWin k i).isOpen then some (.wcl i) else none }) s)

/-- The window whose close is in progress. -/
def closingWin (k : Core) : Option Nat :=
  match k.hold with
  | some (.wcl w) => some w
  | _ => (List.range 4).find? fun i => (getWin k i).closing

/-- WCL_COMPLETE (R147): once no packet admitted to the window awaits its commit, CLOSING clears and dispatch goes on. -/
def wclDone (c : Nat) (s : State) : State :=
  let k := getCore s c
  match closingWin k with
  | none => s
  | some w =>
    if k.held.any fun h => h.wins.contains w then s
    else settleCore c <| updCore s c fun k =>
      { updWin k w (fun x => { x with closing := false }) with hold := if k.hold = some (.wcl w) then none else k.hold }

/-- WCL_COMPLETE (R147). -/
def execWclComplete (lci : Nat) (s : State) : Host.Outcome State Fault Refusal := live s (wclDone lci s)

/-! ### Barriers -/

/-- BAR (R116): dispatched; the core has not arrived yet. A mask of 0 means all four sequencers. -/
def execBar (lci : Nat) (s : State) : Host.Outcome State Fault Refusal :=
  live s (dispatchCtrl lci ocBar (fun e s => updCore s lci fun k =>
    let m := natBits (mwSub e.word) 7 4
    { k with hold := some (.bar (mwSub e.word % 4) (if m = 0 then 15 else m) e.addr), barSeq := k.barSeq + 1 }) s)

/-- The cluster, die or partition that a barrier's scope names for a core (R116). -/
def barPlace (s : State) (c scope : Nat) : Nat :=
  match scope with
  | 0 => lciDc c
  | 1 => dcDie (lciDc c)
  | _ => (lciPart s c).getD 6

/-- The participants of a barrier (R116): RUNNING or TRAPPED, in its place, bound to a sequencer of its mask. DESIGN CHOICE: a core that has dispatched END
and still completes its macro-ops is RUNNING and so a participant, where R117 says that a core that reaches END takes part no more. -/
def barParts (s : State) (part : Option Nat) (scope place mask : Nat) : List Nat :=
  coresWhere s fun c k =>
    (k.st == .running || k.st == .trapped) && k.bindEn && natBit mask k.bindSeq && lciPart s c == part &&
      (match scope with | 0 => lciDc c == place | 1 => dcDie (lciDc c) == place | _ => true)

/-- The barrier that a core would join: of its scope, place and mask, which counts it and where it has not arrived. -/
def barOf (s : State) (c scope mask : Nat) : Option Barrier :=
  s.bars.find? fun b => b.scope == scope && b.place == barPlace s c scope && b.mask == mask && !b.arrived.contains c && b.parts.contains c

/-- The arrival counted (R116): the first one fixes the participants. -/
def barJoin (c scope mask : Nat) (s : State) : State :=
  match barOf s c scope mask with
  | some b =>
    updCore { s with bars := mapIf (fun x => x.id == b.id) (fun x => { x with arrived := setIns x.arrived c }) s.bars } c
      fun k => { k with hold := some (.arrived b.id) }
  | none =>
    let b : Barrier :=
      { id := s.nextBar, scope := scope, place := barPlace s c scope, mask := mask
        parts := barParts s (lciPart s c) scope (barPlace s c scope) mask, arrived := [c], home := lciDc c }
    updCore { s with bars := s.bars ++ [b], nextBar := s.nextBar + 1 } c fun k => { k with hold := some (.arrived b.id) }

/-- A core arrives at its barrier (R116): all its earlier VST, PUT, RPUT and SIG are settled, and its arrival crosses the fabric as a control packet
(R160). One that the fabric cannot deliver answers BUS_ERROR (R152). -/
def barArrive (c : Nat) (s : State) : State :=
  let k := getCore s c
  match k.hold with
  | some (.bar scope mask addr) =>
    if writesPending k || !k.sigs.isEmpty || !coreLive s c then s else
    let home := ((barOf s c scope mask).map (·.home)).getD (lciDc c)
    let x := crossNow .control (.core c) (.ctrl home) 0 s
    if x.2 then barJoin c scope mask x.1 else stopFault c fcBusError ocBar addr 0 x.1
  | _ => s

/-- BARRIER_ARRIVE (R116). -/
def execBarrierArrive (lci : Nat) (s : State) : Host.Outcome State Fault Refusal := live s (barArrive lci s)

/-- Whether a participant counts as arrived: it has arrived, is FAULTED, is in reset, or an abort or sequencer fault has ended its
stream (R117, R125, R318, R414). -/
def barCounts (s : State) (b : Barrier) (c : Nat) : Bool :=
  b.arrived.contains c || (getCore s c).st == .faulted || !coreLive s c ||
    ((getCore s c).st == .idle && (getSeq s (lciDc c) (getCore s c).bindSeq).draining)

/-- The added delay of a release, in picoseconds (R374). -/
def releaseDelay (scope c : Nat) : Nat :=
  match scope with
  | 0 => 0
  | 1 => 15625 * (dcClu (lciDc c) % 64)
  | _ => 31250 * (dcClu (lciDc c) % 64)

/-- One core released (R116, R374), where its control packet reaches it (R160); DESIGN CHOICE: one that the fabric cannot deliver leaves the core held,
of which R152 tells the barrier's port alone. -/
def releaseOne (b : Barrier) (s : State) (c : Nat) : State :=
  if (getCore s c).hold = some (.arrived b.id) then
    let x := crossNow .control (.ctrl b.home) (.core c) 0 s
    if x.2 then settleCore c (updCore x.1 c fun k => { k with hold := none, relDelayPs := releaseDelay b.scope c }) else x.1
  else s

/-- BARRIER_RELEASE (R116): every participant has arrived, and each is released. -/
def barRelease (bid : Nat) (s : State) : State :=
  match s.bars.find? fun b => b.id == bid with
  | none => s
  | some b =>
    if b.parts.all (barCounts s b) then forEach b.arrived (releaseOne b) { s with bars := s.bars.filter fun x => x.id != bid } else s

/-- BARRIER_RELEASE (R116). -/
def execBarrierRelease (bid : Nat) (s : State) : Host.Outcome State Fault Refusal := live s (barRelease bid s)

/-! ### Signals and flags -/

/-- SIG (R117, R176): it waits for the answers of all the core's earlier writes. -/
def execSig (lci : Nat) (s : State) : Host.Outcome State Fault Refusal :=
  live s (dispatchCtrl lci ocSig (fun e s => updCore s lci fun k =>
    let g : SigReq :=
      { target := (coreRegion k (mwDc e.word)).base.toNat / 32768
        flag := mwImm e.word % 16
        after := (k.out.filter fun o => o.kind != .read).map (·.pid)
        afterOps := (k.ops.filter fun p => [ocVst, ocPut, ocRput].contains (mwOp p.word)).map (·.id)
        dropped := false, opcode := ocSig, op := 0, maddr := e.addr }
    { k with sigs := k.sigs ++ [g] }) s)

/-- A SIG or notification sent and delivered over VC0 (R117, R160, R176): a target in reset answers RESET_ABORT (R177), and one that the fabric cannot
reach BUS_ERROR (R152). -/
def sigSend (c i : Nat) (s : State) : State :=
  let k := getCore s c
  match k.sigs[i]? with
  | none => s
  | some g =>
    if sigReady k g then
      let s1 := updCore s c fun k => { k with sigs := k.sigs.eraseIdx i }
      let x := crossNow .control (.core c) (.core g.target) 0 s1
      if !x.2 then stopFault c fcBusError g.opcode g.maddr (spmPa g.target 0) x.1
      else if coreLive x.1 g.target then incFlag g.target g.flag g.opcode x.1
      else coreEvent c fcResetAbort g.opcode x.1
    else s

/-- SIG_DELIVER (R176). -/
def execSigDeliver (lci k : Nat) (s : State) : Host.Outcome State Fault Refusal := live s (sigSend lci k s)

/-- WFL (R117): the core waits; a count of 0 is read as 1. -/
def execWfl (lci : Nat) (s : State) : Host.Outcome State Fault Refusal :=
  live s (dispatchCtrl lci ocWfl (fun e s => updCore s lci fun k =>
    let i := mwImm e.word
    let n := natBits i 15 8
    { k with hold := some (.wfl (i % 16) (if n = 0 then 1 else n) (natBits i 31 16) e.addr) }) s)

/-- WFL_SATISFIED (R117): the flag has reached the count, which is subtracted in one step. -/
def wflTake (c : Nat) (s : State) : State :=
  let k := getCore s c
  match k.hold with
  | some (.wfl f n _ _) =>
    let v := smapGet 0 k.flags f
    if n ≤ v.toNat ∧ coreLive s c then
      settleCore c (updCore s c fun k => { k with flags := smapSet 0 k.flags f (v - BitVec.ofNat 16 n), hold := none })
    else s
  | _ => s

/-- WFL_SATISFIED (R117). -/
def execWflSatisfied (lci : Nat) (s : State) : Host.Outcome State Fault Refusal := live s (wflTake lci s)

/-- WFL_TIMEOUT (R117): the timeout has expired first; the flag is unchanged. -/
def wflExpire (c : Nat) (s : State) : State :=
  let k := getCore s c
  match k.hold with
  | some (.wfl f n t a) =>
    if 0 < t ∧ (smapGet 0 k.flags f).toNat < n ∧ coreLive s c then stopFault c fcWflTimeout ocWfl a 0 s else s
  | _ => s

/-- WFL_TIMEOUT (R117). -/
def execWflTimeout (lci : Nat) (s : State) : Host.Outcome State Fault Refusal := live s (wflExpire lci s)

end Sys2Proof.Machine
end

