-- ==== Sys2Proof/Machine/Telemetry.lean ====
section
/-! DEFINITION. TELEMETRY (R473): the block of values that a selector names. -/

namespace Sys2Proof.Machine

/-- A value as its 8 bytes. -/
def q64 (n : Nat) : List Byte := leBytes 8 n

/-- `n` free values: readings of rails that no state of the model holds. -/
def freeValues : Nat → State → State × List Nat
  | 0, s => (s, [])
  | n + 1, s =>
    let x := drawFree s
    let r := freeValues n x.2
    (r.1, (Config.fresh x.1 % 2 ^ 64) :: r.2)

/-- The rails of AVSBus in their order (R457): VCORE, VTARN, VMEM and VPP, VIO and SerDes. -/
def railList : List (Nat × Nat) :=
  (List.range 6).flatMap (fun k => (List.range 4).map fun r => (k, r)) ++ (List.range 6).map (·, 4) ++ (List.range 6).map (·, 5)
    ++ (List.range 6).map (·, 6) ++ (List.range 10).map (6, ·)

/-- The latest voltage in mV and current in 0.1 A of each rail: free where none has been read. -/
def railValues : List (Nat × Nat) → State → State × List Nat
  | [], s => (s, [])
  | e :: es, s =>
    match smapGet none (s.power.rails.map fun x => (x.1, some x.2)) (e.1 * 16 + e.2) with
    | some v =>
      let r := railValues es s
      (r.1, v.1 :: (v.2.emod (2 ^ 64 : Nat)).toNat :: r.2)
    | none =>
      let x := freeValues 2 s
      let r := railValues es x.1
      (r.1, x.2 ++ r.2)

/-- A class's grant, estimate, measurement and governing draw in watts (R380). -/
def classValues (c : PClass) : List Nat := [c.grant / 1000, c.est, c.meas, c.gov]

/-- The values of kind 0x00 (R473, R474). -/
def deviceValues (s : State) : State × List Nat :=
  let r := railValues railList s
  let p := s.power
  (r.1, [hifState s, p.ePackage.toNat, p.eLinks.toNat, p.eMemory.toNat, p.eCompute.toNat, p.eUnclassed.toNat]
    ++ (List.range 6).map (fun k => (getStk s k).energy.toNat) ++ r.2
    ++ classValues p.links ++ classValues p.memory ++ classValues p.compute)

/-- A list of clusters of a die as three values, one bit for each logical cluster. -/
def cluMask (dcs : List Nat) : List Nat :=
  (List.range 3).map fun i => (dcs.filter fun dc => dcClu dc / 64 == i).foldl (fun m dc => m + 2 ^ (dcClu dc % 64)) 0

/-- The values of kind 0x01 for a stack (R473): its registers in their order, then the accepted value of each layer of each
site, then the clusters of each region (R360) and of each site (R385). -/
def stackValues (s : State) (k : Nat) : List Nat :=
  let m := s.mdies
  let offs := (List.range m).map (fun d => 0x040 + 8 * d) ++ (List.range m).map (fun d => 0x060 + 8 * d)
    ++ (List.range 8).map (fun i => 0x100 + 8 * i) ++ (List.range 4).map (fun i => 0x200 + 8 * i)
    ++ (List.range 14).map (fun i => 0x400 + 8 * i) ++ [0x478, 0x480]
    ++ (List.range 256).map (fun i => 0x800 + 8 * i)
  offs.map (dieRead s k) ++ ((List.range 48).flatMap fun i => (List.range (m + 2)).map fun j =>
    ((smapGet {} (getSite s k i).layers j).accepted.emod (2 ^ 64 : Nat)).toNat)
    ++ (List.range 4).flatMap (fun r => cluMask (rgnDcs s k r)) ++ (List.range 48).flatMap fun i => cluMask ((dieDcs k).filter fun dc => dcSite s dc == i)

/-- The offsets of the 64-bit counters of a cluster control block. -/
def counterOffs : List Nat :=
  [0x020, 0x060, 0x0A0, 0x0E0, 0x180, 0x188, 0x190, 0x198, 0x1A0, 0x218, 0x258, 0x298, 0x2A0, 0x300, 0x308, 0x358, 0x360, 0x368, 0x388]

/-- The values of kind 0x02 for a stack. -/
def counterValues (s : State) (k : Nat) : List Nat := (dieDcs k).flatMap fun dc => counterOffs.map (cluRead s dc)

/-- The values of kind 0x10 for a port (R358). -/
def portValues (s : State) (k : Nat) : List Nat :=
  let p := getPort s k
  let st := lnkStat p
  [st % 2 ^ 64, st / 2 ^ 64 % 2 ^ 64, st / 2 ^ 128 % 2 ^ 64, st / 2 ^ 192, p.txFlits.toNat, p.rxFlits.toNat, p.replays.toNat, p.crcErr.toNat, p.uncorr.toNat]
    ++ (List.range 52).map (fun i => (smapGet 0 p.corr i).toNat) ++ [p.authFail.toNat, p.retrains.toNat, p.txBytes.toNat, p.rxBytes.toNat]

/-- The values of kind 0x20 for a die spine, or die 6 for the package spine. -/
def spineValues (s : State) (d : Nat) : List Nat :=
  (List.range 16).flatMap fun p =>
    [s.net.spineBytes, s.net.spineComb, s.net.spineNocomb, s.net.spineRetry].map fun m => (smapGet 0 m (d * 16 + p)).toNat

/-- The bytes of kind 0x30 for a sector (R472): 4,096, then whether its HMAC passes. -/
def sectorBlock (s : State) (i : Nat) : List Byte := flashBytes s (plogBase i) 4096 ++ q64 (bit (plogAuth s i))

/-- The kind, index and argument of a selector (R473). -/
def selKind (v : Nat) : Nat := natBits v 7 0
def selIndex (v : Nat) : Nat := natBits v 15 8
def selArg (v : Nat) : Nat := natBits v 47 16

/-- The references of TELEMETRY (R473): on a partition's aperture, only the device values and the stacks of the partition. -/
def telemetryRefs (a : Nat) (c : Cmd) (s : State) : Option (Nat × Nat) :=
  let v := c.p 16 8
  let k := selKind v
  let i := selIndex v
  let known := k = 0 ∨ ((k = 1 ∨ k = 2) ∧ i < 6) ∨ (k = 0x10 ∧ i < s.ports) ∨ (k = 0x20 ∧ i < 7) ∨ (k = 0x30 ∧ selArg v < 928)
  let own := a = 0 ∨ k = 0 ∨ ((k = 1 ∨ k = 2) ∧ (getStk s i).part = apPart s a)
  firstRef [(48, natBits v 63 48 != 0, 2), (48, !(decide known && decide own), 5)]

/-- The block between its two stamps of the time base. -/
def telemetryBlock (v : Nat) (s : State) : State × List Byte :=
  let r : State × List Byte := match selKind v with
    | 0x00 => let x := deviceValues s; (x.1, x.2.flatMap q64)
    | 0x01 => (s, (stackValues s (selIndex v)).flatMap q64)
    | 0x02 => (s, (counterValues s (selIndex v)).flatMap q64)
    | 0x10 => (s, (portValues s (selIndex v)).flatMap q64)
    | 0x20 => (s, (spineValues s (selIndex v)).flatMap q64)
    | _ => (s, sectorBlock s (selArg v))
  (r.1, q64 s.dev.time ++ r.2 ++ q64 s.dev.time)

/-- TELEMETRY (R312, R473). -/
def telemetryRun (a : Nat) (c : Cmd) (s : State) : State :=
  let b := telemetryBlock (c.p 16 8) s
  sendBlock a (c.p 0 8) (some (c.p 8 8)) b.2 (mkResult []) b.1

/-- TELEMETRY (R473). -/
def execTelemetry (ap : Nat) (s : State) : Host.Outcome State Fault Refusal :=
  live s (cmdRun ap 0x0013 (telemetryRefs ap) (fun _ => true) (telemetryRun ap) s)

end Sys2Proof.Machine
end

