-- ==== Sys2Proof/Machine/UnitCmds.lean ====
section
/-! DEFINITION. The macro-ops of the execution units as commands: each dispatches the first macro-op of a core's queue (R104, R109 to
R115, R122). -/

namespace Sys2Proof.Machine

/-- OPA (R109). -/
def execOpa (lci : Nat) (s : State) : Host.Outcome State Fault Refusal := live s (dispatchUnit lci ocOpa s)
/-- ACZ (R110). -/
def execAcz (lci : Nat) (s : State) : Host.Outcome State Fault Refusal := live s (dispatchUnit lci ocAcz s)
/-- ACS (R110). -/
def execAcs (lci : Nat) (s : State) : Host.Outcome State Fault Refusal := live s (dispatchUnit lci ocAcs s)
/-- ACD (R110). -/
def execAcd (lci : Nat) (s : State) : Host.Outcome State Fault Refusal := live s (dispatchUnit lci ocAcd s)
/-- QNT (R87, R111). -/
def execQnt (lci : Nat) (s : State) : Host.Outcome State Fault Refusal := live s (dispatchUnit lci ocQnt s)
/-- SCL (R92, R112). -/
def execScl (lci : Nat) (s : State) : Host.Outcome State Fault Refusal := live s (dispatchUnit lci ocScl s)
/-- VOP (R113). -/
def execVop (lci : Nat) (s : State) : Host.Outcome State Fault Refusal := live s (dispatchUnit lci ocVop s)
/-- VRED (R113). -/
def execVred (lci : Nat) (s : State) : Host.Outcome State Fault Refusal := live s (dispatchUnit lci ocVred s)
/-- ASM (R113). -/
def execAsm (lci : Nat) (s : State) : Host.Outcome State Fault Refusal := live s (dispatchUnit lci ocAsm s)
/-- RST (R113). -/
def execRst (lci : Nat) (s : State) : Host.Outcome State Fault Refusal := live s (dispatchUnit lci ocRst s)
/-- RLD (R113). -/
def execRld (lci : Nat) (s : State) : Host.Outcome State Fault Refusal := live s (dispatchUnit lci ocRld s)
/-- VLD (R114). -/
def execVld (lci : Nat) (s : State) : Host.Outcome State Fault Refusal := live s (dispatchUnit lci ocVld s)
/-- VST (R114). -/
def execVst (lci : Nat) (s : State) : Host.Outcome State Fault Refusal := live s (dispatchUnit lci ocVst s)
/-- FIL (R114). -/
def execFil (lci : Nat) (s : State) : Host.Outcome State Fault Refusal := live s (dispatchUnit lci ocFil s)
/-- CPY (R114). -/
def execCpy (lci : Nat) (s : State) : Host.Outcome State Fault Refusal := live s (dispatchUnit lci ocCpy s)

/-- The notification that a PUT asks for (R115): it waits for every answer of that PUT (R176). -/
def queueNotify (c : Nat) (s : State) : State :=
  let e := frontOp s c
  let k := getCore s c
  if dispatchable s c ocPut && !pgSkips k e.word && natBit (mwSub e.word) 0 && (refusal s c (coreArgs k e.word)).isNone
      && decide ((k.ops.filter fun p => p.kind == .memory).length < 8) then
    let t := (coreRegion k (mwDc e.word)).base.toNat / 32768
    updCore s c fun k => { k with
      sigs := k.sigs ++ [{ target := t, flag := mwImm e.word % 16, after := [], afterOps := [k.nextOp], dropped := false, opcode := ocPut, op := k.nextOp, maddr := e.addr }] }
  else s

/-- PUT (R115): its notification is queued with it. -/
def execPut (lci : Nat) (s : State) : Host.Outcome State Fault Refusal := live s (dispatchUnit lci ocPut (queueNotify lci s))
/-- RPUT (R115). -/
def execRput (lci : Nat) (s : State) : Host.Outcome State Fault Refusal := live s (dispatchUnit lci ocRput s)
/-- GET (R115). -/
def execGet (lci : Nat) (s : State) : Host.Outcome State Fault Refusal := live s (dispatchUnit lci ocGet s)
/-- SPQ (R122). -/
def execSpq (lci : Nat) (s : State) : Host.Outcome State Fault Refusal := live s (dispatchUnit lci ocSpq s)

end Sys2Proof.Machine
end

