-- ==== Sys2Proof/Machine/Dispatch.lean ====
section
/-! DEFINITION. The one match over the commands: each arm is one direct call of that command's meaning. -/

namespace Sys2Proof.Machine

/-- The effect of a command on everything but the queue of waiting commands. -/
def exec (i : Instr) (s : State) : Host.Outcome State Fault Refusal :=
  match i with
  | .seqFetch dc seq => Sys2Proof.Machine.execSeqFetch dc seq s
  | .seqIssue dc seq => Sys2Proof.Machine.execSeqIssue dc seq s
  | .nop lci => Sys2Proof.Machine.execNop lci s
  | .endOp lci => Sys2Proof.Machine.execEndOp lci s
  | .lpb lci => Sys2Proof.Machine.execLpb lci s
  | .lpe lci => Sys2Proof.Machine.execLpe lci s
  | .prd lci => Sys2Proof.Machine.execPrd lci s
  | .trp lci => Sys2Proof.Machine.execTrp lci s
  | .opa lci => Sys2Proof.Machine.execOpa lci s
  | .acz lci => Sys2Proof.Machine.execAcz lci s
  | .acs lci => Sys2Proof.Machine.execAcs lci s
  | .acd lci => Sys2Proof.Machine.execAcd lci s
  | .qnt lci => Sys2Proof.Machine.execQnt lci s
  | .scl lci => Sys2Proof.Machine.execScl lci s
  | .vop lci => Sys2Proof.Machine.execVop lci s
  | .vred lci => Sys2Proof.Machine.execVred lci s
  | .asm lci => Sys2Proof.Machine.execAsm lci s
  | .rst lci => Sys2Proof.Machine.execRst lci s
  | .rld lci => Sys2Proof.Machine.execRld lci s
  | .vld lci => Sys2Proof.Machine.execVld lci s
  | .vst lci => Sys2Proof.Machine.execVst lci s
  | .fil lci => Sys2Proof.Machine.execFil lci s
  | .cpy lci => Sys2Proof.Machine.execCpy lci s
  | .put lci => Sys2Proof.Machine.execPut lci s
  | .rput lci => Sys2Proof.Machine.execRput lci s
  | .get lci => Sys2Proof.Machine.execGet lci s
  | .wop lci => Sys2Proof.Machine.execWop lci s
  | .wcl lci => Sys2Proof.Machine.execWcl lci s
  | .wclComplete lci => Sys2Proof.Machine.execWclComplete lci s
  | .bar lci => Sys2Proof.Machine.execBar lci s
  | .barrierArrive lci => Sys2Proof.Machine.execBarrierArrive lci s
  | .barrierRelease bid => Sys2Proof.Machine.execBarrierRelease bid s
  | .sig lci => Sys2Proof.Machine.execSig lci s
  | .sigDeliver lci k => Sys2Proof.Machine.execSigDeliver lci k s
  | .wfl lci => Sys2Proof.Machine.execWfl lci s
  | .wflSatisfied lci => Sys2Proof.Machine.execWflSatisfied lci s
  | .wflTimeout lci => Sys2Proof.Machine.execWflTimeout lci s
  | .spq lci => Sys2Proof.Machine.execSpq lci s
  | .macroOpComplete lci op => Sys2Proof.Machine.execMacroOpComplete lci op s
  | .coreEndComplete lci => Sys2Proof.Machine.execCoreEndComplete lci s
  | .trapReached dc seq oneSec => Sys2Proof.Machine.execTrapReached dc seq oneSec s
  | .writePacketArrive pid => Sys2Proof.Machine.execWritePacketArrive pid s
  | .packetCommit lci pid => Sys2Proof.Machine.execPacketCommit lci pid s
  | .remoteReadArrive pid upset => Sys2Proof.Machine.execRemoteReadArrive pid upset s
  | .reductionPacketArrive pid => Sys2Proof.Machine.execReductionPacketArrive pid s
  | .reductionCombine sw a b => Sys2Proof.Machine.execReductionCombine sw a b s
  | .fabricAnswer pid => Sys2Proof.Machine.execFabricAnswer pid s
  | .readResponseArrive pid => Sys2Proof.Machine.execReadResponseArrive pid s
  | .fabricHopReceive pid rx => Sys2Proof.Machine.execFabricHopReceive pid rx s
  | .verticalPacketReceive lci rx => Sys2Proof.Machine.execVerticalPacketReceive lci rx s
  | .broadcastVldStart dc seq => Sys2Proof.Machine.execBroadcastVldStart dc seq s
  | .memoryWriteArrive pid => Sys2Proof.Machine.execMemoryWriteArrive pid s
  | .memoryReadArrive pid upset lost => Sys2Proof.Machine.execMemoryReadArrive pid upset lost s
  | .fillEntryWait pid => Sys2Proof.Machine.execFillEntryWait pid s
  | .dramFillComplete page => Sys2Proof.Machine.execDramFillComplete page s
  | .correctedWriteback word => Sys2Proof.Machine.execCorrectedWriteback word s
  | .patrolScrubRead stack die upset => Sys2Proof.Machine.execPatrolScrubRead stack die upset s
  | .refreshDue stack mdie column bank => Sys2Proof.Machine.execRefreshDue stack mdie column bank s
  | .dieRefHotClear stack mdie => Sys2Proof.Machine.execDieRefHotClear stack mdie s
  | .springQueueAccept dc k => Sys2Proof.Machine.execSpringQueueAccept dc k s
  | .springPermitGrant dc mdie => Sys2Proof.Machine.execSpringPermitGrant dc mdie s
  | .springStepResume dc mdie => Sys2Proof.Machine.execSpringStepResume dc mdie s
  | .springStepEnd dc mdie => Sys2Proof.Machine.execSpringStepEnd dc mdie s
  | .sprSubmit dc pa => Sys2Proof.Machine.execSprSubmit dc pa s
  | .sprCtrlAbort dc => Sys2Proof.Machine.execSprCtrlAbort dc s
  | .cluDmaStart dc => Sys2Proof.Machine.execCluDmaStart dc s
  | .cluDmaStop dc rows => Sys2Proof.Machine.execCluDmaStop dc rows s
  | .dmaFlagWaitSatisfied dc => Sys2Proof.Machine.execDmaFlagWaitSatisfied dc s
  | .dmaIterationComplete dc => Sys2Proof.Machine.execDmaIterationComplete dc s
  | .translationWalkComplete walk => Sys2Proof.Machine.execTranslationWalkComplete walk s
  | .cluXlatRootWrite dc v => Sys2Proof.Machine.execCluXlatRootWrite dc v s
  | .cluXlatInvAll dc => Sys2Proof.Machine.execCluXlatInvAll dc s
  | .cluXlatInvPage dc v => Sys2Proof.Machine.execCluXlatInvPage dc v s
  | .xlatInvComplete unit => Sys2Proof.Machine.execXlatInvComplete unit s
  | .kvwConfigWrite dc tables v => Sys2Proof.Machine.execKvwConfigWrite dc tables v s
  | .kvWalkComplete walk => Sys2Proof.Machine.execKvWalkComplete walk s
  | .cluSpmPwrWrite dc v => Sys2Proof.Machine.execCluSpmPwrWrite dc v s
  | .spmPowerChangeComplete dc => Sys2Proof.Machine.execSpmPowerChangeComplete dc s
  | .coreBindWrite lci v => Sys2Proof.Machine.execCoreBindWrite lci v s
  | .stkMemCfgWrite stack v => Sys2Proof.Machine.execStkMemCfgWrite stack v s
  | .memLogCtrlClr stack => Sys2Proof.Machine.execMemLogCtrlClr stack s
  | .registerWrite bar0 addr bytes => Sys2Proof.Machine.execRegisterWrite bar0 addr bytes s
  | .apertureWrite off bytes => Sys2Proof.Machine.execApertureWrite off bytes s
  | .packetTake ap => Sys2Proof.Machine.execPacketTake ap s
  | .replyRecordWrite ap => Sys2Proof.Machine.execReplyRecordWrite ap s
  | .eventRecordWrite ap => Sys2Proof.Machine.execEventRecordWrite ap s
  | .msixInterrupt x => Sys2Proof.Machine.execMsixInterrupt x s
  | .apRingHeadWrite ap v => Sys2Proof.Machine.execApRingHeadWrite ap v s
  | .apCtrlEn ap v => Sys2Proof.Machine.execApCtrlEn ap v s
  | .apCtrlAbandon ap => Sys2Proof.Machine.execApCtrlAbandon ap s
  | .functionLevelReset => Sys2Proof.Machine.execFunctionLevelReset s
  | .pcieFundamentalReset => Sys2Proof.Machine.execPcieFundamentalReset s
  | .pcieD3hotEnter => Sys2Proof.Machine.execPcieD3hotEnter s
  | .pcieD0Return => Sys2Proof.Machine.execPcieD0Return s
  | .identity ap => Sys2Proof.Machine.execIdentity ap s
  | .status ap => Sys2Proof.Machine.execStatus ap s
  | .attest ap => Sys2Proof.Machine.execAttest ap s
  | .kex ap => Sys2Proof.Machine.execKex ap s
  | .sessionEnd ap => Sys2Proof.Machine.execSessionEnd ap s
  | .logRead ap => Sys2Proof.Machine.execLogRead ap s
  | .logClear ap => Sys2Proof.Machine.execLogClear ap s
  | .telemetry ap => Sys2Proof.Machine.execTelemetry ap s
  | .fwWrite ap => Sys2Proof.Machine.execFwWrite ap s
  | .fwActivate ap => Sys2Proof.Machine.execFwActivate ap s
  | .ownerLock ap => Sys2Proof.Machine.execOwnerLock ap s
  | .powerSet ap => Sys2Proof.Machine.execPowerSet ap s
  | .thermalSet ap => Sys2Proof.Machine.execThermalSet ap s
  | .devCommit ap => Sys2Proof.Machine.execDevCommit ap s
  | .partCreate ap => Sys2Proof.Machine.execPartCreate ap s
  | .partDestroy ap => Sys2Proof.Machine.execPartDestroy ap s
  | .partConfig ap => Sys2Proof.Machine.execPartConfig ap s
  | .partCommit ap => Sys2Proof.Machine.execPartCommit ap s
  | .partRun ap => Sys2Proof.Machine.execPartRun ap s
  | .partDrain ap => Sys2Proof.Machine.execPartDrain ap s
  | .partDrainComplete q => Sys2Proof.Machine.execPartDrainComplete q s
  | .partDrainExpire q => Sys2Proof.Machine.execPartDrainExpire q s
  | .partReset ap => Sys2Proof.Machine.execPartReset ap s
  | .partResetDrained q => Sys2Proof.Machine.execPartResetDrained q s
  | .unitReset ap => Sys2Proof.Machine.execUnitReset ap s
  | .clusterResetOffEnd dc => Sys2Proof.Machine.execClusterResetOffEnd dc s
  | .dmaWrite ap => Sys2Proof.Machine.execDmaWrite ap s
  | .dmaRead ap => Sys2Proof.Machine.execDmaRead ap s
  | .dmaChunk ap data tag => Sys2Proof.Machine.execDmaChunk ap data tag s
  | .bcastWrite ap chunks => Sys2Proof.Machine.execBcastWrite ap chunks s
  | .xlatLoad ap => Sys2Proof.Machine.execXlatLoad ap s
  | .xlatInval ap => Sys2Proof.Machine.execXlatInval ap s
  | .regRead ap => Sys2Proof.Machine.execRegRead ap s
  | .regWrite ap => Sys2Proof.Machine.execRegWrite ap s
  | .streamStart ap => Sys2Proof.Machine.execStreamStart ap s
  | .streamCtrl ap => Sys2Proof.Machine.execStreamCtrl ap s
  | .springCtrl ap => Sys2Proof.Machine.execSpringCtrl ap s
  | .flitReceive port flit lanes errs => Sys2Proof.Machine.execFlitReceive port flit lanes errs s
  | .replayTimeout port => Sys2Proof.Machine.execReplayTimeout port s
  | .linkPut port => Sys2Proof.Machine.execLinkPut port s
  | .linkGet port => Sys2Proof.Machine.execLinkGet port s
  | .linkRput port => Sys2Proof.Machine.execLinkRput port s
  | .getresp port => Sys2Proof.Machine.execGetresp port s
  | .linkAnswer port => Sys2Proof.Machine.execLinkAnswer port s
  | .linkBarrier port => Sys2Proof.Machine.execLinkBarrier port s
  | .timesync port => Sys2Proof.Machine.execTimesync port s
  | .timesyncSend port => Sys2Proof.Machine.execTimesyncSend port s
  | .hello port => Sys2Proof.Machine.execHello port s
  | .cert port => Sys2Proof.Machine.execCert port s
  | .keyx port => Sys2Proof.Machine.execKeyx port s
  | .finish port => Sys2Proof.Machine.execFinish port s
  | .linkTrainingStart port => Sys2Proof.Machine.execLinkTrainingStart port s
  | .linkTrainStepTimeout port => Sys2Proof.Machine.execLinkTrainStepTimeout port s
  | .readinessTestComplete port tx rx => Sys2Proof.Machine.execReadinessTestComplete port tx rx s
  | .laneErrorWindow port corr uncorr => Sys2Proof.Machine.execLaneErrorWindow port corr uncorr s
  | .retrain x => Sys2Proof.Machine.execRetrain x s
  | .retrainComplete port tx rx => Sys2Proof.Machine.execRetrainComplete port tx rx s
  | .laneMarkerLoss x => Sys2Proof.Machine.execLaneMarkerLoss x s
  | .linkChainFlagWait port q => Sys2Proof.Machine.execLinkChainFlagWait port q s
  | .linkChainIterationComplete port q => Sys2Proof.Machine.execLinkChainIterationComplete port q s
  | .capControlTick x => Sys2Proof.Machine.execCapControlTick x s
  | .opVoltageSettled rgn failed => Sys2Proof.Machine.execOpVoltageSettled rgn failed s
  | .powerMeasurementWindow links memory compute => Sys2Proof.Machine.execPowerMeasurementWindow links memory compute s
  | .currentMonitorSample rgn amps => Sys2Proof.Machine.execCurrentMonitorSample rgn amps s
  | .droopDetect dc permille => Sys2Proof.Machine.execDroopDetect dc permille s
  | .droopRecover dc => Sys2Proof.Machine.execDroopRecover dc s
  | .clusterTurnOnStage dc => Sys2Proof.Machine.execClusterTurnOnStage dc s
  | .turnOnWaitExpire dc => Sys2Proof.Machine.execTurnOnWaitExpire dc s
  | .turnOnStretchRelease rgn => Sys2Proof.Machine.execTurnOnStretchRelease rgn s
  | .ageingSlackLow rgn => Sys2Proof.Machine.execAgeingSlackLow rgn s
  | .regulatorFault rail => Sys2Proof.Machine.execRegulatorFault rail s
  | .sensorRead stack xs => Sys2Proof.Machine.execSensorRead stack xs s
  | .plausibilityCheck stack site compute above => Sys2Proof.Machine.execPlausibilityCheck stack site compute above s
  | .overtempStop stack site => Sys2Proof.Machine.execOvertempStop stack site s
  | .thermalTrip => Sys2Proof.Machine.execThermalTrip s
  | .thetaWindow stack elapsed => Sys2Proof.Machine.execThetaWindow stack elapsed s
  | .keepWarmHoldExpire stack => Sys2Proof.Machine.execKeepWarmHoldExpire stack s
  | .inletTemperatureWrite w => Sys2Proof.Machine.execInletTemperatureWrite w s
  | .outletTemperatureWrite w => Sys2Proof.Machine.execOutletTemperatureWrite w s
  | .flowWrite w => Sys2Proof.Machine.execFlowWrite w s
  | .supplyRedundancyWrite w => Sys2Proof.Machine.execSupplyRedundancyWrite w s
  | .alertStatusRead => Sys2Proof.Machine.execAlertStatusRead s
  | .alertDriftClear w => Sys2Proof.Machine.execAlertDriftClear w s
  | .alertMaskWrite w => Sys2Proof.Machine.execAlertMaskWrite w s
  | .pwrgdInRise x => Sys2Proof.Machine.execPwrgdInRise x s
  | .pwrgdInFall => Sys2Proof.Machine.execPwrgdInFall s
  | .pkgRstNAssert => Sys2Proof.Machine.execPkgRstNAssert s
  | .pkgRstNRelease x => Sys2Proof.Machine.execPkgRstNRelease x s
  | .watchdogExpire x => Sys2Proof.Machine.execWatchdogExpire x s
  | .meridianResetRequest x => Sys2Proof.Machine.execMeridianResetRequest x s
  | .persistentLogAppend => Sys2Proof.Machine.execPersistentLogAppend s
  | .clusterTurnOffStage dc => Sys2Proof.Machine.execClusterTurnOffStage dc s
  | .vauxApply => Sys2Proof.Machine.execVauxApply s
  | .vauxLoss => Sys2Proof.Machine.execVauxLoss s
  | .trainingFrameLock port => Sys2Proof.Machine.execTrainingFrameLock port s
  | .equaliserAdaptationComplete port => Sys2Proof.Machine.execEqualiserAdaptationComplete port s
  | .laneAlignmentComplete x => Sys2Proof.Machine.execLaneAlignmentComplete x s

end Sys2Proof.Machine
end

