-- ==== Sys2Proof/Safety.lean ====
section
/-! DEFINITION. The terms that claims about the device use: a sound part, when a command can act, and what else it leaves alone. -/

namespace Sys2Proof.Machine

/-! ### The device -/

/-- The part is one that is built (R2). -/
def Fitted (s : State) : Prop := (s.mdies = 2 ∨ s.mdies = 3 ∨ s.mdies = 4) ∧ (s.ports = 2 ∨ s.ports = 4 ∨ s.ports = 6)

/-- A byte memory in canonical form: addresses strictly rising, and no entry equal to what an unlisted address reads as. -/
abbrev Memory.wf (m : List Host.Cell) : Bool := smapWf 0 m

/-- A run is safe while it stops nowhere: the spec gives every command an effect, or none, in every state. -/
def Continues (s : State) : Prop := ∃ t, step s = .next t

/-- The commands that a pin, VAUX or the SMBus carries: the package takes them also while a reset is held (R404, R454, R456). -/
def pinCommand : Instr → Bool
  | .pwrgdInRise _ | .pwrgdInFall | .pkgRstNAssert | .pkgRstNRelease _ | .vauxApply | .vauxLoss | .watchdogExpire _
  | .meridianResetRequest _ | .inletTemperatureWrite _ | .outletTemperatureWrite _ | .flowWrite _ | .supplyRedundancyWrite _
  | .alertStatusRead | .alertDriftClear _ | .alertMaskWrite _ => true
  | _ => false

/-- Commands of the pins that reset or boot the package (R403, R454, R460). -/
def resetCommand : Instr → Bool
  | .pwrgdInRise _ | .pwrgdInFall | .pkgRstNAssert | .pkgRstNRelease _ | .vauxApply | .vauxLoss | .watchdogExpire _
  | .meridianResetRequest _ => true
  | _ => false

/-! ### Cores -/

/-- `t` differs from `s` in one core at most. -/
def OnlyCore (c : Nat) (s t : State) : Prop := t = { s with cores := t.cores } ∧ ∀ d, d ≠ c → getCore t d = getCore s d

/-- Core `c` can dispatch the macro-op `e` of opcode `o` now (R104): it is RUNNING in a cluster that is switched on, waits for nothing, and
`e` is first in its queue. -/
def Poised (s : State) (c o : Nat) (e : QEnt) : Prop :=
  awake s = true ∧ (getCore s c).st = .running ∧ (getClu s (lciDc c)).pwr.st = .on ∧ (getCore s c).hold = none ∧
    (getCore s c).queue.head? = some e ∧ mwOp e.word = o

/-- No sequencer fault or abort is draining the core (R125, R318). -/
def Steady (s : State) (c : Nat) : Prop :=
  (getCore s c).bindEn = false ∨ (getSeq s (lciDc c) (getCore s c).bindSeq).draining = false

/-- The macro-op `e` takes effect at its dispatch: its PG test passes (R103) and no check of R101 refuses it. -/
def Accepted (s : State) (c : Nat) (e : QEnt) : Prop :=
  pgSkips (getCore s c) e.word = false ∧ refusal s c (coreArgs (getCore s c) e.word) = none

/-- The state in which core `c` has taken the macro-op at the front of its queue and is then changed by `f`. -/
def taken (c : Nat) (f : Core → Core) (s : State) : State := updCore (popQueue c s) c f

/-- Memory with the bytes `bs` laid over runs of it in order. -/
def putRuns : List (Nat × Nat) → List Byte → List Host.Cell → List Host.Cell
  | [], _, m => m
  | (o, n) :: rs, bs, m => putRuns rs (bs.drop n) (memPuts m o (bs.take n))

/-- The state with bytes laid over runs of core `c`'s scratchpads, and nothing else of it changed. -/
def written (c : Nat) (rs : List (Nat × Nat)) (bs : List Byte) (s : State) : State :=
  updCore s c fun k => { k with spm := putRuns rs bs k.spm }

/-- A block as QNT writes it at exponent `e` (R83, R84, R86, R87): a NaN block, a saturated one, or one in its plain form. -/
def blockAs (f e : Nat) (vs : List FVal) : QBlk :=
  if vs.any isNanV then qNan else if overflowsAt f e vs || vs.any isInfV then qSaturated f e vs else qPlain f e vs

/-- The macro-ops of the units that take effect within their core (R104): the command, the opcode and the unit. -/
def innerOps : List ((Nat → Instr) × Nat × UnitKind) :=
  [(.opa, ocOpa, .engine), (.acz, ocAcz, .engine), (.acs, ocAcs, .engine), (.acd, ocAcd, .engine), (.qnt, ocQnt, .engine),
   (.scl, ocScl, .engine), (.vop, ocVop, .vector), (.vred, ocVred, .vector), (.asm, ocAsm, .vector), (.rst, ocRst, .vector),
   (.rld, ocRld, .vector), (.fil, ocFil, .memory), (.cpy, ocCpy, .memory)]

/-- The macro-ops of the memory unit that reach outside their core (R104). -/
def outerOps : List ((Nat → Instr) × Nat × UnitKind) :=
  [(.vld, ocVld, .memory), (.vst, ocVst, .memory), (.put, ocPut, .memory), (.rput, ocRput, .memory), (.get, ocGet, .memory),
   (.spq, ocSpq, .memory)]

/-- The control macro-ops, which have no unit (R104). -/
def ctrlOps : List ((Nat → Instr) × Nat) :=
  [(.nop, ocNop), (.endOp, ocEnd), (.lpb, ocLpb), (.lpe, ocLpe), (.prd, ocPrd), (.trp, ocTrp), (.wop, ocWop), (.wcl, ocWcl),
   (.bar, ocBar), (.sig, ocSig), (.wfl, ocWfl)]

/-- The state in which `e` has entered unit `u` of core `c` and started (R104), the scratchpad lines of its local sides counted for the estimate of
R378. -/
def entered (c : Nat) (u : UnitKind) (e : QEnt) (s : State) : State :=
  let x := coreArgs (getCore s c) e.word
  countAct (lciDc c) akSpm ((sideLines (readsLocal x)).length + (sideLines (writesLocal x)).length)
    (updOp c (getCore s c).nextOp (fun p => { p with started := true }) (enterUnit c u e (popQueue c s)))

/-- The macro-op that core `c` takes up next, as its unit holds it once it has started. -/
def startedOp (s : State) (c : Nat) (u : UnitKind) (e : QEnt) : MOp :=
  let x := coreArgs (getCore s c) e.word
  { id := (getCore s c).nextOp, word := e.word, addr := e.addr, kind := u, started := true, formed := false
    rd := sideLines (readsLocal x), wr := sideLines (writesLocal x), tw := tarnWords x
    da := x.a, db := x.b, dc := x.c, xl := [], todo := [], waits := [] }

/-- Whether window offset `a` lies in one of the local sides. -/
def inSides (xs : List (Nat × Runs)) (a : Nat) : Prop := ∃ x ∈ xs, ∃ r ∈ winRuns x.1 x.2, r.1 ≤ a ∧ a < r.1 + r.2

/-! ### Links -/

/-- `m` is the oldest message of virtual channel `v` that waits at port `k`, with `rest` the others, and its header bears type `t`. -/
def Waiting (s : State) (k v t : Nat) (m : InMsg) (rest : List InMsg) : Prop :=
  awake s = true ∧ takeOut (fun m => m.vc == v) (getPort s k).inbox = some (m, rest) ∧ (parseHdr m.bytes).type = t

/-- The state in which `m` has left the receive buffer with `data` in the clear. -/
def received (k : Nat) (m : InMsg) (rest : List InMsg) (data : List Byte) (s : State) : State :=
  updPort s k fun p => { freeMsg m rest p with rxBytes := inc64 p.rxBytes data.length }

/-- The outcome's state after a message of port `k` handled in `s` has made `t`: what waits is sent, or ACK and credit alone. -/
def replied (k : Nat) (s t : State) : State := ofPackage s (answerBack k (getPort s k).txOut.length t)

/-- Port `k` is in DOWN with a reason (R339): no lane map and no key, nothing buffered, nothing awaited. -/
def Down (t : State) (k reason : Nat) : Prop :=
  (getPort t k).st = .down ∧ (getPort t k).reason = reason ∧ (getPort t k).width = 3 ∧ (getPort t k).txmap = 0 ∧ (getPort t k).rxmap = 0 ∧
    (getPort t k).keyed = false ∧ (getPort t k).keyTx = [] ∧ (getPort t k).keyRx = [] ∧ (getPort t k).inbox = [] ∧
    (getPort t k).txMsgs = [] ∧ (getPort t k).replay = [] ∧ (getPort t k).reqs = []

/-- The messages that an ACTIVE port takes (R347): the command, the virtual channel and the type. -/
def linkMessages : List ((Nat → Instr) × Nat × Nat) :=
  [(.linkPut, 1, mtPut), (.linkGet, 1, mtGet), (.linkRput, 2, mtRput), (.getresp, 1, mtGetResp), (.linkAnswer, 0, mtAnswer),
   (.linkBarrier, 0, mtBarrier), (.timesync, 0, mtTimesync)]

/-- The messages of key setup (R348): the command, CSUB and the step at which it belongs. -/
def setupMessages : List ((Nat → Instr) × Nat × Nat) := [(.hello, 1, 0), (.cert, 2, 1), (.keyx, 3, 2), (.finish, 4, 3)]

/-! ### Power -/

/-- No cluster of `dcs` runs or is turning on. -/
def Dark (t : State) (dcs : List Nat) : Prop := ∀ dc ∈ dcs, (getClu t dc).pwr.st = .off ∨ (getClu t dc).pwr.st = .stopped

/-! ### Frames -/

/-- Commands of power, heat and the sideband that stop no cluster: no work of the device is theirs to change. The cap's tick counts the ports' flits,
and the sensors may trip the package: statements of their own say what those leave alone. -/
def upkeepCommand : Instr → Bool
  | .opVoltageSettled _ _ | .powerMeasurementWindow _ _ _ | .droopDetect _ _ | .droopRecover _ | .turnOnWaitExpire _
  | .turnOnStretchRelease _ | .clusterTurnOffStage _ | .ageingSlackLow _ | .thetaWindow _ _
  | .keepWarmHoldExpire _ | .inletTemperatureWrite _ | .outletTemperatureWrite _ | .flowWrite _ | .supplyRedundancyWrite _
  | .alertStatusRead | .alertDriftClear _ | .alertMaskWrite _ => true
  | _ => false

/-- Commands of an aperture about the device as a whole: its identity, firmware, locks and settings. -/
def deviceCommand : Instr → Bool
  | .identity _ | .status _ | .attest _ | .kex _ | .logRead _ | .fwWrite _ | .fwActivate _ | .ownerLock _ | .powerSet _ | .thermalSet _ => true
  | _ => false

/-- Commands of a link port that serve no request of the neighbour. -/
def portCommand : Instr → Bool
  | .linkTrainingStart _ | .trainingFrameLock _ | .equaliserAdaptationComplete _ | .readinessTestComplete _ _ _ | .laneAlignmentComplete _
  | .linkTrainStepTimeout _ | .laneErrorWindow _ _ _ | .retrain _ | .laneMarkerLoss _ | .replayTimeout _ | .hello _ | .cert _ | .keyx _
  | .finish _ | .flitReceive _ _ _ _ | .linkBarrier _ | .timesync _ | .timesyncSend _ => true
  | _ => false

/-! ### Apertures -/

/-- The command `c` of opcode `op` is in progress on aperture `a` and is next: checks 1 and 2 of R306 have passed, no reserved byte of its
parameters is set, and it is this aperture's turn among those that wait (R291). -/
def Current (s : State) (a op : Nat) (c : Cmd) : Prop :=
  awake s = true ∧ (getAp s a).cur = some c ∧ c.opcode = op ∧ c.stray = none ∧ myTurn s a = true

/-- A command of which nothing has been done yet. -/
def Fresh (c : Cmd) : Prop := c.started = false ∧ c.moved = 0 ∧ c.job = none ∧ c.bcast = none ∧ c.post = none

/-- The fabric carries an access to cluster `dc`'s control port: no hop has a hard fault (R152, R277) and its region runs (R406). -/
def Reaches (s : State) (dc : Nat) : Prop := s.net.hard = [] ∧ regionDead s (.ctrl dc) = false

/-- The device of state `s` after the command in progress on aperture `a` has been answered in state `t` (R294). -/
def answered (s : State) (a st : Nat) (result : List Byte) (t : State) : State := ofPackage s (finish a st result t)

end Sys2Proof.Machine
end

