-- ==== Sys2Proof/Certificates/Slice0/Obligations.lean ====
section
/-! DEFINITION. The statements for the provers. -/

section
open Sys2Proof Sys2Proof.Machine

/-- A step takes the command at the front of the queue and runs it with the rest of the queue; on an empty queue the time base alone
moves, by 1 ns (the model's choice, log entry 3). -/
def Obligations.StepRunsFrontCommand : Prop :=
  (∀ c rest s, s.pending = c :: rest → step s = exec c { s with pending := rest }) ∧
    ∀ s, s.pending = [] → step s = .next (tick s)

/-- No command stops the device, whatever its operands and in whatever state, and one that is not due changes nothing (the model's choice, log
entry 1); each leaves the part as manufacture made it, and the queue shortened by that command. -/
def Obligations.EveryStepContinues : Prop :=
  ∀ s, ∃ t, step s = .next t ∧ t.pending = s.pending.tail ∧ t.mdies = s.mdies ∧ t.ports = s.ports ∧ t.serial = s.serial ∧
    t.rev = s.rev ∧ (Fitted s → Fitted t)

/-- Without VAUX, while a package reset is held, and after a fault of VIO rail 0, a command changes nothing unless it is one of `pinCommand`: the
power-good and reset pins, VAUX, the watchdog, Meridian's own reset request and the SMBus (log entry 59, DEDUCED). The PCIe fundamental reset, a pin
of the link, is none of them: with the package in reset there is no link to reset. -/
def Obligations.AsleepNothingActs : Prop :=
  ∀ i s, awake s = false → pinCommand i = false → exec i s = .next s

/-- Every step keeps the memory in its canonical form, whatever waits at the front of the queue. -/
def Obligations.MemoryStaysCanonical : Prop :=
  ∀ s t, Memory.wf s.mem.bytes = true → step s = .next t → Memory.wf t.mem.bytes = true

/-- The machine right after reset: nothing waits, every core, partition and port is at its reset value, memory lists nothing and is in canonical
form. That the device is held and waits for power-good, and its variant, a fitted one with a cap of 240, are the model's choice (log entry 2, DESIGN
CHOICE). -/
def Obligations.ResetState : Prop :=
  State.reset.pending = [] ∧ State.reset.cores = [] ∧ Memory.wf State.reset.mem.bytes = true ∧ State.reset.dev.held = true ∧
    awake State.reset = false ∧ State.reset.power.cap = 240 ∧ Fitted State.reset ∧
    (∀ c, (getCore State.reset c).st = .idle ∧ (getCore State.reset c).spm = []) ∧ (∀ q, (getPart State.reset q).st = .none) ∧
    (∀ k, (getPort State.reset k).st = .disabled) ∧ (∀ dc, (getClu State.reset dc).pwr.st = .off) ∧
    ∀ x, memByte State.reset.mem.bytes x = 0

/-- A thermal trip is held until a package reset or the loss of VAUX, whatever else is commanded; the lock and owner fuses are burnt by
OWNER_LOCK alone, and no command clears one; no command lowers the rollback counter, whose fuses a boot burns. -/
def Obligations.TripAndFusesHold : Prop :=
  ∀ i s t, exec i s = .next t →
    (s.side.thermTrip = true → resetCommand i = false → t.side.thermTrip = true) ∧
    ((∀ a, i ≠ .ownerLock a) → t.dev.lockBits = s.dev.lockBits ∧ t.dev.ownerSlots = s.dev.ownerSlots ∧
      t.dev.ownerReleased = s.dev.ownerReleased) ∧
    s.dev.lockBits ≤ t.dev.lockBits ∧ (∀ x ∈ s.dev.ownerReleased, x ∈ t.dev.ownerReleased) ∧
    (s.dev.rollback ≤ 64 → s.dev.rollback ≤ t.dev.rollback)

/-- What whole groups of commands leave alone: upkeep of power and heat, the sideband and commands about the device change no core, no byte of
memory, no packet and no partition's state; a tick of the cap changes of a port only its count of flits estimated; a port's own commands
change no core, no packet in flight and no partition. -/
def Obligations.GroupFrames : Prop :=
  ∀ i s t, exec i s = .next t →
    (upkeepCommand i = true → t.cores = s.cores ∧ t.mem = s.mem ∧ t.net = s.net ∧ t.links = s.links ∧ t.parts = s.parts ∧ t.bars = s.bars ∧
      t.pcie = s.pcie ∧ t.xlead = s.xlead ∧ t.walks = s.walks) ∧
    (∀ x, i = .capControlTick x → t.cores = s.cores ∧ t.mem = s.mem ∧ t.net = s.net ∧ t.parts = s.parts ∧ t.bars = s.bars ∧ t.pcie = s.pcie ∧
      t.xlead = s.xlead ∧ t.walks = s.walks ∧ ∀ k, getPort t k = { getPort s k with estFlits := (getPort t k).estFlits }) ∧
    (deviceCommand i = true → t.cores = s.cores ∧ t.clusters = s.clusters ∧ t.mem = s.mem ∧ t.net = s.net ∧ t.links = s.links ∧
      t.bars = s.bars ∧ t.xlead = s.xlead ∧ t.walks = s.walks ∧ ∀ q, (getPart t q).st = (getPart s q).st) ∧
    (portCommand i = true → t.cores = s.cores ∧ t.net.pkts = s.net.pkts ∧ t.parts = s.parts ∧ t.bars = s.bars)

/-- A macro-op whose PG bit is set, on a core whose predicate is 0, completes at once: it leaves the queue and changes nothing else.
LPB, LPE, END, BAR and VLD in broadcast form ignore PG; TRP holds its core all the same (R121).

The same for the control macro-ops that heed PG. -/
def Obligations.PredicateSkips : Prop :=
  (∀ x ∈ innerOps ++ outerOps, ∀ s c e, Poised s c x.2.1 e → Steady s c → mwPg e.word = true → (getCore s c).pred = false →
     ¬ (x.2.1 = ocVld ∧ natBit (mwSub e.word) 1 = true) → exec (x.1 c) s = .next (popQueue c s)) ∧
  (∀ x ∈ ctrlOps, x.2 ≠ ocLpb → x.2 ≠ ocLpe → x.2 ≠ ocEnd → x.2 ≠ ocBar → x.2 ≠ ocTrp → ∀ s c e,
     Poised s c x.2 e → Steady s c → mwPg e.word = true → (getCore s c).pred = false → exec (x.1 c) s = .next (popQueue c s))

/-- A macro-op that R101 refuses has no effect and is a stopping fault: the core is FAULTED, its queue empty, `CORE_FAULT0` names the code
and the opcode, `CORE_FAULT1` is zero, or where the fault is about an address a free value (log entry 13, DEDUCED), `CORE_FAULT2` the time; every
other core, every register of the core and every byte are as before. -/
def Obligations.RefusalFaults : Prop :=
  ∀ x ∈ innerOps ++ outerOps, ∀ s c e code, Poised s c x.2.1 e → pgSkips (getCore s c) e.word = false →
    ((getCore s c).ops.filter fun p => p.kind == x.2.2).length < 8 → (getCore s c).flt = false →
    refusal s c (coreArgs (getCore s c) e.word) = some code →
    ∃ t, exec (x.1 c) s = .next t ∧ (getCore t c).st = .faulted ∧ (getCore t c).flt = true ∧ (getCore t c).queue = [] ∧
      (getCore t c).hold = none ∧
      (getCore t c).fault0 = fault0Word s c code x.2.1 e.addr ∧ (getCore t c).fault1 = w64 (refusedAddr c code (coreArgs (getCore s c) e.word) % 2 ^ 48) ∧
      (getCore t c).fault2 = w64 s.dev.time ∧ t.mem = s.mem ∧
      (getCore t c).spm = (getCore s c).spm ∧ (getCore t c).acc0 = (getCore s c).acc0 ∧ (getCore t c).acc1 = (getCore s c).acc1 ∧
      (getCore t c).areg = (getCore s c).areg ∧ (getCore t c).desc = (getCore s c).desc ∧ (getCore t c).flags = (getCore s c).flags ∧
      ∀ d, d ≠ c → getCore t d = getCore s d

/-- NOP, END, BAR, WFL and SIG: NOP only leaves the queue; END holds the core until it can complete; BAR holds it until it arrives, a
mask of 0 naming all four sequencers; WFL holds it for a flag, a count of 0 read as 1; SIG joins the signals not yet sent, behind the
core's earlier writes.

LPB records the advances of the descriptors of its mask and opens a loop of COUNT iterations. LPE goes round again while iterations
are left, and adds STRIDE1 to each masked advance; the last time it puts the advances of the LPB back and closes the loop.

WOP opens its window over the DC region, from its first byte to its last, with its scope and epoch, in one step. WCL on an open
window takes its close point and holds dispatch; on another it completes, and marks the window held only if a WOP has ranged it.

TRP holds its core. A core whose PG test fails only waits; one that passes, with no macro-op left in its units, is TRAPPED, and
`CORE_TRAP` holds the code and the macro-op's index in the stream. -/
def Obligations.ControlMacroOps : Prop :=
  (∀ s c e o, Poised s c o e → Steady s c → Accepted s c e →
     (o = ocNop → exec (.nop c) s = .next (popQueue c s)) ∧
     (o = ocEnd → exec (.endOp c) s = .next (taken c (fun k => { k with hold := some .endOp }) s)) ∧
     (o = ocBar → exec (.bar c) s = .next (taken c (fun k => { k with
       hold := some (.bar (mwSub e.word % 4) (if natBits (mwSub e.word) 7 4 = 0 then 15 else natBits (mwSub e.word) 7 4) e.addr)
       barSeq := k.barSeq + 1 }) s)) ∧
     (o = ocWfl → exec (.wfl c) s = .next (taken c (fun k => { k with
       hold := some (.wfl (mwImm e.word % 16) (if natBits (mwImm e.word) 15 8 = 0 then 1 else natBits (mwImm e.word) 15 8)
         (natBits (mwImm e.word) 31 16) e.addr) }) s)) ∧
     (o = ocSig → exec (.sig c) s = .next (taken c (fun k => { k with
       sigs := k.sigs ++ [{ target := (coreRegion k (mwDc e.word)).base.toNat / 32768, flag := mwImm e.word % 16
                            after := (k.out.filter fun r => r.kind != .read).map (·.pid)
                            afterOps := (k.ops.filter fun p => [ocVst, ocPut, ocRput].contains (mwOp p.word)).map (·.id)
                            dropped := false, opcode := ocSig, op := 0, maddr := e.addr }] }) s))) ∧
  (∀ s c e o, Poised s c o e → Steady s c → Accepted s c e →
     (o = ocLpb → exec (.lpb c) s = .next (taken c (fun k => { k with
       loops := ⟨mwImm e.word, (maskDescs (mwImm e.word)).map fun d => (d, smapGet 0 k.adv d), mwCount e.word⟩ :: k.loops }) s)) ∧
     (o = ocLpe → ∀ f fs, (getCore s c).loops = f :: fs →
       (1 < f.left → exec (.lpe c) s = .next (taken c (fun k => { k with
         loops := { f with left := f.left - 1 } :: fs
         adv := (maskDescs f.mask).foldl (fun m d => smapSet 0 m d (smapGet 0 m d + (coreRegion k d).stride1)) k.adv }) s)) ∧
       (f.left ≤ 1 → exec (.lpe c) s = .next (taken c (fun k => { k with
         loops := fs, adv := f.saved.foldl (fun m x => smapSet 0 m x.1 x.2) k.adv }) s)))) ∧
  (∀ s c e o, Poised s c o e → Steady s c → Accepted s c e →
     (o = ocWop → exec (.wop c) s = .next (taken c (fun k => updWin k (mwImm e.word % 4) fun w => { w with
       base := spaceBase (coreRegion k (mwDc e.word)).space + (coreRegion k (mwDc e.word)).lo.toNat
       last := spaceBase (coreRegion k (mwDc e.word)).space + (coreRegion k (mwDc e.word)).hi.toNat - 1
       scope := natBits (mwImm e.word) 3 2, epoch := natBits (mwImm e.word) 15 8, isOpen := true, held := false, ranged := true }) s)) ∧
     (o = ocWcl → (getWin (getCore s c) (mwImm e.word % 4)).isOpen = true → exec (.wcl c) s = .next (taken c (fun k =>
       { updWin k (mwImm e.word % 4) (fun w => { w with isOpen := false, closing := true, held := true }) with
         hold := some (.wcl (mwImm e.word % 4)) }) s)) ∧
     (o = ocWcl → (getWin (getCore s c) (mwImm e.word % 4)).isOpen = false → exec (.wcl c) s = .next (taken c (fun k =>
       updWin k (mwImm e.word % 4) fun w => { w with held := w.held || w.ranged }) s))) ∧
  (∀ s c e, Poised s c ocTrp e →
     (pgSkips (getCore s c) e.word = true → Steady s c → exec (.trp c) s =
       .next (taken c (fun k => { k with hold := some (.trp (mwImm e.word % 65536) e.addr false) }) s)) ∧
     (pgSkips (getCore s c) e.word = false → (getCore s c).ops = [] →
       ∃ t, exec (.trp c) s = .next t ∧ OnlyCore c s t ∧ getCore t c = { getCore s c with
         queue := (getCore s c).queue.drop 1, hold := some (.trp (mwImm e.word % 65536) e.addr true), st := .trapped
         trapReg := w64 (0xF0 + 2 ^ 16 * (mwImm e.word % 65536) +
           2 ^ 32 * ((e.addr - (getSeq s (lciDc c) (getCore s c).bindSeq).start) / 8 % 2 ^ 32)) }))

/-- PRD sets the predicate by SUB: IMM[0]; the core's row, column or cluster within IMM[7:0] to IMM[15:8]; a flag other than 0; or the
predicate's complement. Nothing else of the device changes but that the macro-op leaves the queue. SUB 6 and 7 raise ILLEGAL_OP: the core
is FAULTED and its predicate as it was. -/
def Obligations.PredicateMacroOp : Prop :=
  ∀ s c e, Poised s c ocPrd e → pgSkips (getCore s c) e.word = false →
    (mwSub e.word % 8 < 6 → Steady s c → ∃ b : Bool, exec (.prd c) s = .next (taken c (fun k => { k with pred := b }) s) ∧
      (mwSub e.word % 8 = 0 → b = natBit (mwImm e.word) 0) ∧
      (mwSub e.word % 8 = 1 → (b = true ↔ mwImm e.word % 256 ≤ lciRow c ∧ lciRow c ≤ natBits (mwImm e.word) 15 8)) ∧
      (mwSub e.word % 8 = 2 → (b = true ↔ mwImm e.word % 256 ≤ lciCol c ∧ lciCol c ≤ natBits (mwImm e.word) 15 8)) ∧
      (mwSub e.word % 8 = 3 → (b = true ↔ mwImm e.word % 256 ≤ dcClu (lciDc c) ∧ dcClu (lciDc c) ≤ natBits (mwImm e.word) 15 8)) ∧
      (mwSub e.word % 8 = 4 → (b = true ↔ smapGet 0 (getCore s c).flags (mwImm e.word % 16) ≠ 0)) ∧
      (mwSub e.word % 8 = 5 → b = !(getCore s c).pred)) ∧
    (6 ≤ mwSub e.word % 8 → (getCore s c).flt = false → ∃ t, exec (.prd c) s = .next t ∧ (getCore t c).st = .faulted ∧
      (getCore t c).queue = [] ∧ (getCore t c).pred = (getCore s c).pred ∧ (getCore t c).fault0 = fault0Word s c fcIllegalOp ocPrd e.addr)

/-- OPA, ACZ, ACS, ACD, QNT, SCL, VOP, VRED, ASM, RST, RLD, FIL and CPY in a core whose units are empty, and whose scratchpads hold no flipped
cell, enter their unit, start at once and have their whole effect there; the unit keeps them until they complete (log entry 14, DEDUCED). -/
def Obligations.InnerMacroOps : Prop :=
  ∀ x ∈ innerOps, ∀ s c e, Poised s c x.2.1 e → Accepted s c e → (getCore s c).ops = [] → (getCore s c).spmFlips = [] →
    (unitEffect c (coreArgs (getCore s c) e.word) (entered c x.2.2 e s)).2 = none →
    exec (x.1 c) s = .next (updOp c (getCore s c).nextOp (fun p => { p with formed := true })
      (unitEffect c (coreArgs (getCore s c) e.word) (entered c x.2.2 e s)).1)

/-- What the accumulator macro-ops do in their core: OPA puts the sums of R109 into the active bank and leaves the other; ACZ clears bank
SUB[0] to +0.0; ACS exchanges the banks, or makes bank SUB[0] active where SUB[1] is set; ACD drains bank SUB[0] in row-major order.

What the vector macro-ops, FIL and CPY write (R113, R114), with no flipped or stuck cell in the scratchpads. VOP: each element of DC is the
sub-op's value of its elements a and b and of its own former value, rounded once; b is DB's, IMM's, or DB's for its row. VRED: each row's maximum or
sum. ASM: step, merge and replay, row by row. RST and RLD: statistics reduced to one value a row, and taken up again. The sources are as before the
macro-op, whatever it overwrites, and the sums of ASM are rounded product by product (the model's choices, log entry 117).

What QNT and SCL do (R79 to R92, R112), with no flipped or stuck cell in the scratchpads. QNT writes its 16 blocks in order, a BF16 tile rounded
element by element, a block format's at the exponent that a live source has raised by at most 3 until no finite element overflows, and counts and
marks what overflowed in the scale entry. SCL loads its entries from DA, stores them there, or ends their step by R92. -/
def Obligations.UnitEffects : Prop :=
  (∀ s c x,
     (mwOp x.w = ocOpa → (getCore (unitEffect c x s).1 c).bank (getCore s c).abank = opaBank s c x ∧
       (getCore (unitEffect c x s).1 c).bank (1 - (getCore s c).abank) = (getCore s c).bank (1 - (getCore s c).abank) ∧
       (getCore (unitEffect c x s).1 c).spm = (getCore s c).spm) ∧
     (mwOp x.w = ocAcz → unitEffect c x s = (updCore s c fun k => k.setBank (mwSub x.w % 2) [], none)) ∧
     (mwOp x.w = ocAcs → unitEffect c x s = (updCore s c fun k => { k with
       abank := if natBit (mwSub x.w) 1 then mwSub x.w % 2 else 1 - k.abank }, none)) ∧
     (mwOp x.w = ocAcd → (unitEffect c x s).2 = none → s.stuck = [] → ∀ a, smapGet [] (getCore s c).spmFlips (a / 8) = [] → memByte (getCore (unitEffect c x s).1 c).spm a =
       if spaceBase x.c.space + x.c.base.toNat ≤ a ∧ a < spaceBase x.c.space + x.c.base.toNat + 1024
       then (tileBytes ((getCore s c).bank (mwSub x.w % 2))).getD (a - (spaceBase x.c.space + x.c.base.toNat)) 0
       else memByte (getCore s c).spm a)) ∧
  (∀ s c x, (getCore s c).spmFlips = [] → s.stuck = [] → ∀ wrote : List (Nat × Nat) → List Byte → Prop,
     (∀ rs bs, wrote rs bs ↔ (unitEffect c x s).2 = none ∧
       ∀ a, memByte (getCore (unitEffect c x s).1 c).spm a = memByte (putRuns rs bs (getCore s c).spm) a) →
     (mwOp x.w = ocVop → ∀ f, (mwSub x.w % 16, f) ∈ ([(0, fun a b _ => vAdd a b), (1, fun a b _ => vMul a b), (2, fun a b d => vAdd (vMul a b) d),
         (3, fun a b _ => vMax a b), (4, fun a _ _ => f32 (fExp2 (asF32 a))), (5, fun a _ _ => f32 (fRsqrt (asF32 a))),
         (6, fun a _ _ => f32 (fRecip (asF32 a))), (7, fun a _ _ => a)] : List (Nat × (FVal → FVal → FVal → FVal))) →
       ∀ b : Nat → FVal, (∀ i, b i = if natBit (mwSub x.w) 6 then f32 (BitVec.ofNat 32 (mwImm x.w))
         else (readFloats s c x.b x.b.runs).getD (if natBit (mwSub x.w) 7 then i / x.c.ext0 else i) .nan) →
       wrote (winRuns x.c.space x.c.runs) ((List.range x.c.elems).flatMap fun i => floatBytes x.c.fmt
         (f ((readFloats s c x.a x.a.runs).getD i .nan) (b i) ((readFloats s c x.c x.c.runs).getD i .nan)))) ∧
     (mwOp x.w = ocVred → wrote (winRuns x.c.space (takeRuns (4 * x.a.ext1) x.c.runs))
       (wordsBytes ((readRows s c x.a).map fun r => if natBit (mwSub x.w) 0 then rowSum r else rowMax r))) ∧
     (mwOp x.w = ocAsm → ∀ m l, (m, l) = readStats s c x.b →
       (mwSub x.w % 4 = 0 → ∀ r, r = (List.range 16).map (fun i => asmStep ((readRows s c x.a).getD i []) (m.getD i 0) (l.getD i 0)
           ((readRows s c x.c).getD i [])) → ∀ u, u = written c (winRuns x.b.space (statRuns x.b)) (statBytes (r.map (·.2.1)) (r.map (·.2.2.1)))
             (written c (winRuns x.a.space x.a.runs) (wordsBytes (r.flatMap (·.1))) s) → (unitEffect c x s).2 = none ∧
           ∀ a, memByte (getCore (unitEffect c x s).1 c).spm a =
             memByte (putRuns (winRuns x.c.space x.c.runs) (wordsBytes (r.flatMap (·.2.2.2))) (getCore u c).spm) a) ∧
       (mwSub x.w % 4 = 1 → ∀ p ps po r, p = runBytes s c x.a.space (mergeRuns x) → ps = wordsOf fmFp32 (p.take 128) →
         po = wordsOf x.a.fmt (p.drop 128) → r = (List.range 16).map (fun i => asmMerge (m.getD i 0) (l.getD i 0) (ps.getD i 0) (ps.getD (16 + i) 0)
           ((readRows s c x.c).getD i []) ((po.drop (i * x.c.ext0)).take x.c.ext0)) → (unitEffect c x s).2 = none ∧
           ∀ a, memByte (getCore (unitEffect c x s).1 c).spm a = memByte (putRuns (winRuns x.c.space x.c.runs) (wordsBytes (r.flatMap (·.2.2)))
             (getCore (written c (winRuns x.b.space (statRuns x.b)) (statBytes (r.map (·.1)) (r.map (·.2.1))) s) c).spm) a) ∧
       (mwSub x.w % 4 = 2 → wrote (winRuns x.a.space x.a.runs) ((List.range 16).flatMap fun i =>
         wordsBytes (((readRows s c x.a).getD i []).map fun v => fExp2 (fSub v (m.getD i 0)))))) ∧
     (mwOp x.w = ocRst → ∀ m l, (m, l) = readStats s c x.a → wrote (winRuns x.c.space (takeRuns 64 x.c.runs))
       (wordsBytes ((List.range 16).map fun i => if vIsZero (f32 (l.getD i 0)) then fNegInf else fAdd (m.getD i 0) (fLog2 (l.getD i 0))))) ∧
     (mwOp x.w = ocRld → wrote (winRuns x.c.space (statRuns x.c))
       (wordsBytes (wordsOf fmFp32 (runBytes s c x.a.space (takeRuns 64 x.a.runs))) ++ wordsBytes (List.replicate 16 fOne))) ∧
     (mwOp x.w = ocFil → wrote (winRuns x.c.space x.c.runs) ((List.range x.c.ext1).flatMap fun _ => (List.range x.c.rowB).map fun k =>
       BitVec.ofNat 8 (mwImm x.w / 256 ^ (k % 4) % 256))) ∧
     (mwOp x.w = ocCpy → wrote (winRuns x.c.space x.c.runs) (runBytes s c x.a.space x.a.runs))) ∧
  (∀ s c x, (getCore s c).spmFlips = [] → s.stuck = [] → ∀ t, t = (unitEffect c x s).1 →
     (mwOp x.w = ocQnt → x.c.fmt = fmBf16 → (unitEffect c x s).2 = none ∧ ∀ a, memByte (getCore t c).spm a =
       memByte (getCore (forEach (List.range 16) (fun u b => written c [(spaceBase x.c.space + x.c.base.toNat + 64 * b, 64)]
         ((qntBlk u c x b).flatMap fun v => leBytes 2 (noNegZero (encodeF bf16 v))) u) s) c).spm a) ∧
     (mwOp x.w = ocQnt → x.c.fmt ∈ [fmSb4, fmMx4, fmMx8e4, fmMx8e5] → ∀ e0, e0 = sentOf (getScale (getCore s c) x.c.sidx) → ∃ e,
       (unitEffect c x s).2 = none ∧ e0.exp ≤ e ∧ e ≤ e0.exp + 3 ∧ (e0.mode ≠ 0 ∨ qntLive x = false → e = e0.exp) ∧
       (∀ ovf : Nat → Prop, (∀ i, ovf i ↔ ∃ b, b < 16 ∧ (qntBlk s c x b).any isNanV = false ∧ overflowsAt x.c.fmt i (qntBlk s c x b) = true) →
         e0.mode = 0 → qntLive x = true → (∀ i, e0.exp ≤ i → i < e → ovf i) ∧ (ovf e → e = e0.exp + 3 ∨ 254 ≤ e)) ∧
       (∀ a, memByte (getCore t c).spm a = memByte (getCore (forEach (List.range 16) (fun u b =>
         written c ((qWrites x.c.fmt b (blockAs x.c.fmt e (qntBlk u c x b))).map fun w => (spaceBase x.c.space + x.c.base.toNat + w.1, w.2.length))
           ((qWrites x.c.fmt b (blockAs x.c.fmt e (qntBlk u c x b))).flatMap (·.2)) u) s) c).spm a) ∧
       (qntLive x = true → ∀ bad : Nat → Bool, (∀ b, bad b = ((qntBlk s c x b).any isNanV || (qntBlk s c x b).any isInfV ||
           overflowsAt x.c.fmt e (qntBlk s c x b))) →
         (sentOf (getScale (getCore t c) x.c.sidx)).ovf = min 65535 (e0.ovf + ((List.range 16).filter bad).length) ∧
         ((sentOf (getScale (getCore t c) x.c.sidx)).raise = true ↔ e0.raise = true ∨ e ≠ e0.exp ∨
           ∃ b, b < 16 ∧ (qntBlk s c x b).any isNanV = false ∧ overflowsAt x.c.fmt e (qntBlk s c x b) = true))) ∧
     (mwOp x.w = ocScl → ∀ n, n = natBits (mwImm x.w) 12 6 → ∀ rs, rs = takeRuns (8 * n) x.a.runs →
       (mwSub x.w % 4 = 0 → (∀ i, i < n → getScale (getCore t c) (mwImm x.w % 64 + i) =
           getScale (setScale (getCore s c) (mwImm x.w % 64 + i) (fieldAt (runBytes s c x.a.space rs) (8 * i) 8)) (mwImm x.w % 64 + i)) ∧
         (getCore t c).spm = (getCore s c).spm) ∧
       (mwSub x.w % 4 = 1 → (getCore t c).scale = (getCore s c).scale ∧ ∀ a, memByte (getCore t c).spm a = memByte (putRuns (winRuns x.a.space rs)
         ((List.range n).flatMap fun i => leBytes 8 (getScale (getCore s c) (mwImm x.w % 64 + i)).toNat) (getCore s c).spm) a) ∧
       (mwSub x.w % 4 = 2 → (∀ i, i < n → getScale (getCore t c) (mwImm x.w % 64 + i) = getScale (setScale (getCore s c) (mwImm x.w % 64 + i)
           (sentWord (endOfStep (sentOf (getScale (getCore s c) (mwImm x.w % 64 + i)))))) (mwImm x.w % 64 + i)) ∧
         (getCore t c).spm = (getCore s c).spm) ∧
       (mwSub x.w % 4 ≠ 1 → ∀ j, (∀ i, i < n → j ≠ mwImm x.w % 64 + i) → getScale (getCore t c) j = getScale (getCore s c) j)))

/-- A macro-op that takes effect within its core changes no scratchpad byte outside the local sides that it writes, no byte of the Tarn
or DRAM, and no other core: a word with flipped cells apart, where a write of part of it may take up what the decoder delivers (R264). -/
def Obligations.InnerFrame : Prop :=
  ∀ o ∈ [ocOpa, ocAcz, ocAcs, ocAcd, ocQnt, ocScl, ocVop, ocVred, ocAsm, ocRst, ocRld, ocFil, ocCpy], ∀ s c x, mwOp x.w = o →
    (s.stuck = [] → ∀ a, ¬ inSides (writesLocal x) a → smapGet [] (getCore s c).spmFlips (a / 8) = [] →
      memByte (getCore (unitEffect c x s).1 c).spm a = memByte (getCore s c).spm a) ∧
    (unitEffect c x s).1.mem.bytes = s.mem.bytes ∧ ∀ d, d ≠ c → getCore (unitEffect c x s).1 d = getCore s d

/-- VLD (other than in broadcast form), VST, PUT, RPUT and GET in a core whose units are empty enter the memory unit and start at once: the
translations that the far side needs are sought. A PUT with SUB[0] has its notification queued, which waits for that PUT alone.

SPQ in a core whose units are empty enters the memory unit and hands the descriptor's bytes to its column's spring queue, behind the
answers of the core's earlier writes. A VLD in broadcast form only enters its unit: it starts with the bus. -/
def Obligations.OuterMacroOps : Prop :=
  (∀ x ∈ outerOps, x.2.1 ≠ ocSpq → ∀ s c e, Poised s c x.2.1 e → Accepted s c e → (getCore s c).ops = [] → (getCore s c).spmFlips = [] →
     ¬ (x.2.1 = ocVld ∧ natBit (mwSub e.word) 1 = true) → ∀ u,
     u = (if x.2.1 = ocPut ∧ natBit (mwSub e.word) 0 = true then updCore s c fun k => { k with
       sigs := k.sigs ++ [{ target := (coreRegion k (mwDc e.word)).base.toNat / 32768, flag := mwImm e.word % 16, after := []
                            afterOps := [k.nextOp], dropped := false, opcode := ocPut, op := k.nextOp, maddr := e.addr }] } else s) →
     exec (x.1 c) s = .next (ofPackage s (settleCore c (resolveOp c (getCore s c).nextOp (entered c .memory e u))))) ∧
  (∀ s c e, Accepted s c e → (getCore s c).ops = [] → (getCore s c).spmFlips = [] →
     (Poised s c ocSpq e → ∀ r, r = (coreArgs (getCore s c) e.word).a → exec (.spq c) s = .next
       (updClu (updOp c (getCore s c).nextOp (fun p => { p with formed := true, waits := [p.id] }) (entered c .memory e s)) (lciDc c) fun q =>
         { q with spr := { q.spr with waiting := q.spr.waiting ++
           [{ core := some c, op := (getCore s c).nextOp, flag := mwImm e.word % 16, desc := runBytes s c r.space r.runs, phys := false
              recAddr := 0, after := ((getCore s c).out.filter fun o => o.kind != .read).map (·.pid), afterOps := [], maddr := e.addr }] } })) ∧
     (Poised s c ocVld e → natBit (mwSub e.word) 1 = true → exec (.vld c) s = .next (enterUnit c .memory e (popQueue c s))))

/-- A started transfer: with no translation to seek, or its one page translated and allowed, its pieces are formed and a PUT, RPUT or GET
sends packets while the port's limits and the order of the core's transfers allow; a far page that may not be written, or that VLD or VST finds
outside the core's own Tarn slice, or that has no translation, is a stopping fault (R123, R195), whose address is the transfer's first one in that
page (log entry 13, DEDUCED). A transfer over several pages seeks each of them the same way.

One piece of a transfer: PUT sends a write packet, RPUT a reduction packet with its tag and format, GET a read request; each bears the
partition and the device address, and the core notes that it awaits the answer. -/
def Obligations.Transfers : Prop :=
  (∀ s c id p, findOp (getCore s c) id = some p → p.id = id → p.started = true → p.formed = false → p.xl = [] →
     (farPages p = [] → ∀ t, t = updOp c id (fun q => { q with todo := formPieces q, formed := true }) s →
       resolveOp c id s = if isFabricOp p.word then sendAll c t else t) ∧
     ∀ pg, farPages p = [pg] →
       (∀ u l, xlLook (.cluster (lciDc c)) (lciPart s c) (pg * 0x1_0000) s = (u, .hit l) →
         (farWrite (mwOp p.word) = true → l.w = true) →
         ((mwOp p.word = ocVld ∨ mwOp p.word = ocVst) → inOwnTarn u (lciDc c) (l.at (pg * 0x1_0000)) = true) →
         ∀ t, t = updOp c id (fun q => { q with todo := formPieces q, formed := true })
           (updOp c id (fun q => { q with
             xl := smapInsert q.xl pg (l.at (pg * 0x1_0000)), big := if l.size = 0x1_0000 then q.big else setIns q.big pg
             kvs := if kvOwns u (lciDc c) (pg * 0x1_0000) then setIns q.kvs pg else q.kvs }) u) →
         resolveOp c id s = if isFabricOp p.word then sendAll c t else t) ∧
       (∀ u l, xlLook (.cluster (lciDc c)) (lciPart s c) (pg * 0x1_0000) s = (u, .hit l) → farWrite (mwOp p.word) = true → l.w = false →
         resolveOp c id s = opFault c p fcPermission (pageAddr p pg) u) ∧
       (∀ u, xlLook (.cluster (lciDc c)) (lciPart s c) (pg * 0x1_0000) s = (u, .off) →
         resolveOp c id s = opFault c p fcPageFault (pageAddr p pg) u)) ∧
  (∀ s c p x d, endpointOf s x.far = some d → (getCore s c).spmFlips = [] → ∀ t e, sendPiece c p x s = (t, e) → ∀ g, g = piecePage p x.far →
     ∀ bs, bs = (((x.loc, x.n) :: x.more).flatMap fun r => spmBytes s c r.1 r.2).map some →
     (mwOp p.word = ocPut → e = none ∧ t.net.pkts = s.net.pkts ++ [{ blankPkt .write (.core c) d 1 (lciPart s c) with
       id := s.net.nextId, stamp := s.net.nextId, addr := x.far, hops := hopsOf 1 (.core c) d 0, data := bs, page := g }] ∧
       (getCore t c).out = (getCore s c).out ++ [⟨s.net.nextId, .write, p.id, ocPut, p.addr, x.loc⟩]) ∧
     (mwOp p.word = ocRput → e = none ∧ t.net.pkts = s.net.pkts ++ [{ blankPkt .reduction (.core c) d 2 (lciPart s c) with
       id := s.net.nextId, stamp := s.net.nextId, addr := x.far, hops := hopsOf 2 (.core c) d (mwImm p.word % 65536), tag := mwImm p.word % 65536
       fmt := p.da.fmt, data := bs, page := g }] ∧
       (getCore t c).out = (getCore s c).out ++ [⟨s.net.nextId, .reduction, p.id, ocRput, p.addr, x.loc⟩]) ∧
     (mwOp p.word = ocGet → e = none ∧ t.net.pkts = s.net.pkts ++ [{ blankPkt .readReq (.core c) d 1 (lciPart s c) with
       id := s.net.nextId, stamp := s.net.nextId, addr := x.far, len := x.n, hops := hopsOf 1 (.core c) d 0, page := g }] ∧
       (getCore t c).out = (getCore s c).out ++ [⟨s.net.nextId, .read, p.id, ocGet, p.addr, x.loc⟩]))

/-- A macro-op completes once it has started, formed its transfer and waits for nothing: it leaves its unit, an SCL lets dispatch go on,
and what can start does. The last one before a TRP has its core TRAPPED.

END completes once the core's macro-ops have completed and its remote writes have been answered: the core returns to IDLE with its
binding. The sequencer that has issued END enters ENDED with the last of its cores.

A stream that has issued TRP and whose cores have all reached it is TRAPPED, with one TRAP event (R326), whose report the fabric carries where no
hop has a hard fault; at a rotation point, 0xC001 to 0xC0FF (R398), whose count another stream has fixed, A15 becomes that count times A14 in every
bound core and the sequencer goes on (log entry 63). -/
def Obligations.Completions : Prop :=
  (∀ s c id p, awake s = true → findOp (getCore s c) id = some p → p.started = true → p.formed = true → p.todo = [] → p.waits = [] →
     (getClu s (lciDc c)).pwr.st = .on →
     exec (.macroOpComplete c id) s = .next (ofPackage s (settleTrap c (pump c (updCore (dropOp c id s) c fun k => { k with
       hold := if k.hold = some (.scl id) then none else k.hold })))) ∧
     ((getCore s c).ops = [p] → Steady s c → (∀ code a, (getCore s c).hold ≠ some (.trp code a true)) →
       ∃ t, exec (.macroOpComplete c id) s = .next t ∧ OnlyCore c s t ∧ getCore t c = { getCore s c with
         ops := [], hold := if (getCore s c).hold = some (.scl id) then none else (getCore s c).hold }) ∧
     ((getCore s c).ops = [p] → ∀ code a, (getCore s c).hold = some (.trp code a true) → (getCore s c).st = .running →
       ∃ t, exec (.macroOpComplete c id) s = .next t ∧ OnlyCore c s t ∧ getCore t c = { getCore s c with
         ops := [], st := .trapped
         trapReg := w64 (0xF0 + 2 ^ 16 * code +
           2 ^ 32 * ((a - (getSeq s (lciDc c) (getCore s c).bindSeq).start) / 8 % 2 ^ 32)) })) ∧
  (∀ s c, awake s = true → (getCore s c).st = .running → (getClu s (lciDc c)).pwr.st = .on → (getCore s c).hold = some .endOp →
     (getCore s c).ops = [] → (∀ o ∈ (getCore s c).out, o.kind = .read) →
     ∃ t, exec (.coreEndComplete c) s = .next t ∧ getCore t c = { getCore s c with st := .idle, hold := none, loops := [], adv := [] } ∧
       (∀ d, d ≠ c → getCore t d = getCore s d) ∧ ∀ n, n = (getCore s c).bindSeq → ∀ q, q = getSeq s (lciDc c) n →
         getSeq t (lciDc c) n = if q.st = .running ∧ q.ended = true ∧
           (∀ d ∈ boundCores t (lciDc c) n, (getCore t d).st = .idle ∨ (getCore t d).st = .faulted) then { q with st := .ended } else q) ∧
  (∀ s dc n one code a, awake s = true → s.net.hard = [] → (getSeq s dc n).st = .running → (getSeq s dc n).trp = some (code, a) → allAtTrp s dc n = true →
     (¬ (0xC001 ≤ code ∧ code ≤ 0xC0FF) → ∃ t, exec (.trapReached dc n one) s = .next t ∧
       getSeq t dc n = { getSeq s dc n with st := .trapped } ∧ t.cores = s.cores ∧ t.mem = s.mem ∧
       ∃ e, t.dev.log.getLast? = some e ∧ e.code = 0x0102 ∧ e.data = mkResult [(0, 2, dc), (2, 1, n), (4, 2, code),
         (8, 4, (trappedCores s dc n).length), (12, 4, (a - (getSeq s dc n).start) / 8)]) ∧
     (0xC001 ≤ code ∧ code ≤ 0xC0FF → ∀ q r, dcPart s dc = some q → (getPart s q).rots[(getSeq s dc n).rotIdx]? = some r →
       ∃ t, exec (.trapReached dc n one) s = .next t ∧
         getSeq t dc n = { getSeq s dc n with st := .running, trp := none, rotIdx := (getSeq s dc n).rotIdx + 1 } ∧
         ∀ c ∈ boundCores s dc n, smapGet 0 (getCore t c).areg 15 = BitVec.ofNat 48 r * smapGet 0 (getCore s c).areg 14))

/-- WCL completes once no packet admitted to its window awaits its commit; until then it waits.

A SIG or notification that waits for nothing crosses the fabric, where no hop has a hard fault, and raises its flag by 1 in its target and in no other
core; at 0xFFFF the increment is lost and FLAG_SATURATED is raised there; a target in reset answers RESET_ABORT (R177), and a target in a supply region
that has stopped cannot be reached, which is BUS_ERROR for the sender (R406).

WFL goes on once its flag has reached the count, which is taken from the flag in one step (R117); where its timeout comes first, the core takes
WFL_TIMEOUT and the flag stays as it is. -/
def Obligations.WindowsAndFlags : Prop :=
  (∀ s c w, awake s = true → (getCore s c).hold = some (.wcl w) →
     ((∀ h ∈ (getCore s c).held, w ∉ h.wins) → Steady s c → exec (.wclComplete c) s = .next (updCore s c fun k =>
       { updWin k w (fun x => { x with closing := false }) with hold := none })) ∧
     ((∃ h ∈ (getCore s c).held, w ∈ h.wins) → exec (.wclComplete c) s = .next s)) ∧
  (∀ s c i g, awake s = true → (getCore s c).sigs[i]? = some g → sigReady (getCore s c) g = true → s.net.hard = [] → ∀ u v,
     u = (crossNow .control (.core c) (.core g.target) 0 (updCore s c fun k => { k with sigs := k.sigs.eraseIdx i })).1 →
     v = smapGet 0 (getCore s g.target).flags g.flag →
     (∀ d, (getCore u d).flags = (getCore s d).flags) ∧
     (regionDead s (.core g.target) = true →
       exec (.sigDeliver c i) s = .next (ofPackage s (stopFault c fcBusError g.opcode g.maddr (spmPa g.target 0) u))) ∧
     (regionDead s (.core g.target) = false → (getClu s (lciDc g.target)).pwr.st = .on → v ≠ 0xFFFF#16 →
       exec (.sigDeliver c i) s = .next (ofPackage s (updCore u g.target fun k => { k with flags := smapSet 0 k.flags g.flag (v + 1) }))) ∧
     (regionDead s (.core g.target) = false → (getClu s (lciDc g.target)).pwr.st = .on → v = 0xFFFF#16 →
       exec (.sigDeliver c i) s = .next (ofPackage s (coreEvent g.target fcFlagSat g.opcode u))) ∧
     (regionDead s (.core g.target) = false → (getClu s (lciDc g.target)).pwr.st ≠ .on →
       exec (.sigDeliver c i) s = .next (ofPackage s (coreEvent c fcResetAbort g.opcode u)))) ∧
  (∀ s c f n tmo a, awake s = true → (getCore s c).hold = some (.wfl f n tmo a) → (getClu s (lciDc c)).pwr.st = .on →
     (n ≤ (smapGet 0 (getCore s c).flags f).toNat → Steady s c → exec (.wflSatisfied c) s = .next (updCore s c fun k => { k with
       flags := smapSet 0 k.flags f (smapGet 0 k.flags f - BitVec.ofNat 16 n), hold := none })) ∧
     ((smapGet 0 (getCore s c).flags f).toNat < n → exec (.wflSatisfied c) s = .next s) ∧
     ((smapGet 0 (getCore s c).flags f).toNat < n → 0 < tmo → ∃ t, exec (.wflTimeout c) s = .next t ∧
       (getCore t c).st = .faulted ∧ (getCore t c).queue = [] ∧ (getCore t c).hold = none ∧ (getCore t c).flags = (getCore s c).flags ∧
       ((getCore s c).flt = false → (getCore t c).fault0 = fault0Word s c fcWflTimeout ocWfl a)))

/-- A core arrives at its barrier once its earlier writes and signals are settled and its arrival has crossed the fabric: it joins the barrier of its
place and mask that waits for it, or opens one with the participants of that moment; an arrival that the fabric cannot carry is BUS_ERROR. A barrier
releases its cores once every participant counts as arrived; one that still has macro-ops to complete after END is a participant (log entry 116), and
the barrier's home is the cluster of the core that opened it (log entry 119). -/
def Obligations.Barriers : Prop :=
  (∀ s c scope mask addr, awake s = true → (getCore s c).hold = some (.bar scope mask addr) → writesPending (getCore s c) = false →
    (getCore s c).sigs = [] → (getClu s (lciDc c)).pwr.st = .on → ∀ o, o = (s.bars.find? fun b => b.scope == scope &&
      b.place == barPlace s c scope && b.mask == mask && !b.arrived.contains c && b.parts.contains c) →
    ∀ u ok, crossNow .control (.core c) (.ctrl ((o.map (·.home)).getD (lciDc c))) 0 s = (u, ok) →
    (ok = true → o = none → exec (.barrierArrive c) s = .next (ofPackage s (updCore { u with
      bars := s.bars ++ [{ id := s.nextBar, scope := scope, place := barPlace s c scope, mask := mask
                           parts := barParts s (lciPart s c) scope (barPlace s c scope) mask, arrived := [c], home := lciDc c }]
      nextBar := s.nextBar + 1 } c fun k => { k with hold := some (.arrived s.nextBar) }))) ∧
    (ok = true → ∀ b, o = some b → exec (.barrierArrive c) s = .next (ofPackage s (updCore { u with
      bars := mapIf (fun x => x.id == b.id) (fun x => { x with arrived := setIns x.arrived c }) s.bars } c
        fun k => { k with hold := some (.arrived b.id) }))) ∧
    (ok = false → exec (.barrierArrive c) s = .next (ofPackage s (stopFault c fcBusError ocBar addr 0 u))) ∧
    (s.net.hard = [] → regionDead s (.ctrl ((o.map (·.home)).getD (lciDc c))) = false → ok = true ∧ u.cores = s.cores ∧ u.clusters = s.clusters ∧
      u.mem = s.mem)) ∧
  ∀ s bid b, awake s = true → (s.bars.find? fun b => b.id == bid) = some b →
    ((∀ c ∈ b.parts, barCounts s b c = true) → exec (.barrierRelease bid) s = .next (ofPackage s (forEach b.arrived (releaseOne b)
        { s with bars := s.bars.filter fun x => x.id != bid })) ∧
      (s.net.hard = [] → s.net.pkts = [] → ∃ t, exec (.barrierRelease bid) s = .next t ∧
        t.bars = (s.bars.filter fun x => x.id != bid) ∧ ∀ c ∈ b.arrived, (getCore s c).hold = some (.arrived bid) →
          regionDead s (.core c) = false → (getCore t c).hold = none ∧ (getCore t c).relDelayPs = releaseDelay b.scope c)) ∧
    ((∃ c ∈ b.parts, barCounts s b c = false) → exec (.barrierRelease bid) s = .next s)

/-- The unit that holds the next macro-op is fetched through the cluster's translations from its own Tarn slice; a macro-op at or past the
limit is PROGRAM_RANGE.

A macro-op is issued to every core of the stream once each has a queue entry free; LPB opens a loop, LPE goes back to its body, to be fetched
again, while iterations are left, END ends the fetch and TRP holds the stream. An LPB with COUNT 0 begins a skip. An undefined opcode is ILLEGAL_OP at the
sequencer, a fifth open loop LOOP_DEPTH, and an LPE with no loop open, or an END with one open, LOOP_MISMATCH.

Within a body that an LPB with COUNT 0 skips, nothing is issued: each macro-op is passed over, and the skip ends with the LPE of that LPB. What such
an LPB leaves undone beyond this, and an undefined opcode in a skipped body, are the model's choice (log entry 102). -/
def Obligations.Sequencers : Prop :=
  (∀ s dc n q, awake s = true → q = getSeq s dc n → seqActive q = true → bufHolds q = false →
     (q.limit ≤ q.pc → exec (.seqFetch dc n) s = .next (ofPackage s (seqFault dc n fcProgramRange s))) ∧
     (q.pc < q.limit → ∀ u l loc m bs, xlLook (.cluster dc) (dcPart s dc) (q.pc / 64 * 64) s = (u, .hit l) →
       inOwnTarn u dc (l.at (q.pc / 64 * 64)) = true → paLoc u (l.at (q.pc / 64 * 64)) = some loc → memLoad loc 64 2 u = (m, none, bs) →
       exec (.seqFetch dc n) s = .next (ofPackage s (updSeq m dc n fun k => { k with buf := some (q.pc / 64 * 64, bs) })))) ∧
  (∀ s dc n q, awake s = true → q = getSeq s dc n → seqActive q = true → bufHolds q = true → q.pc < q.limit → q.skip = 0 →
     ∀ w o, w = seqWord q → o = mwOp w → ∀ i, i = issueTo dc n ⟨w, q.pc⟩ s →
     (o ∉ definedOps → exec (.seqIssue dc n) s = .next (ofPackage s (seqFault dc n fcIllegalOp s))) ∧
     (o ∈ definedOps → queuesFree s dc n = true →
       (o ≠ ocLpb → o ≠ ocLpe → o ≠ ocEnd → o ≠ ocTrp →
         exec (.seqIssue dc n) s = .next (ofPackage s (updSeq i dc n fun k => { k with pc := q.pc + 8 }))) ∧
       (o = ocLpb → 0 < mwCount w → q.loops.length < 4 → exec (.seqIssue dc n) s = .next (ofPackage s (updSeq i dc n fun k =>
         { k with pc := q.pc + 8, loops := ⟨q.pc + 8, mwCount w⟩ :: k.loops }))) ∧
       (o = ocLpe → ∀ l ls, q.loops = l :: ls → exec (.seqIssue dc n) s = .next (ofPackage s (updSeq i dc n fun k =>
         if 1 < l.left then { k with pc := l.body, loops := ⟨l.body, l.left - 1⟩ :: ls, buf := none } else { k with pc := q.pc + 8, loops := ls }))) ∧
       (o = ocEnd → q.loops = [] → exec (.seqIssue dc n) s = .next (ofPackage s (checkSeqEnd dc n (updSeq i dc n fun k =>
         { k with pc := q.pc + 8, ended := true })))) ∧
       (o = ocTrp → exec (.seqIssue dc n) s = .next (ofPackage s (updSeq i dc n fun k =>
         { k with pc := q.pc + 8, trp := some (mwImm w % 65536, k.pc) })))) ∧
     (o ∈ definedOps → o ≠ ocLpb → o ≠ ocLpe → o ≠ ocEnd → queuesFree s dc n = false → exec (.seqIssue dc n) s = .next s) ∧
     (o = ocLpb → mwCount w = 0 → exec (.seqIssue dc n) s = .next (updSeq s dc n fun k => { k with pc := q.pc + 8, skip := 1 })) ∧
     (o = ocLpb → 0 < mwCount w → 4 ≤ q.loops.length → exec (.seqIssue dc n) s = .next (ofPackage s (seqFault dc n fcLoopDepth s))) ∧
     (o = ocLpe ∧ q.loops = [] ∨ o = ocEnd ∧ q.loops ≠ [] → exec (.seqIssue dc n) s = .next (ofPackage s (seqFault dc n fcLoopMismatch s)))) ∧
  (∀ s dc n q, awake s = true → q = getSeq s dc n → seqActive q = true → bufHolds q = true → q.pc < q.limit → 0 < q.skip →
     exec (.seqIssue dc n) s = .next (updSeq s dc n fun k => { k with
       pc := q.pc + 8
       skip := if mwOp (seqWord q) = ocLpb then q.skip + 1 else if mwOp (seqWord q) = ocLpe then q.skip - 1 else q.skip }))

/-- A write or reduction packet at its owner's check point: it is admitted where an open window holds all of its bytes and reaches its
writer's scope, and awaits its commit there; else it is dropped, counted at the lowest closed window that would have held it, and
answered WINDOW_CLOSED or NO_WINDOW, as one into a powered-down half always is (R138); a core in a cluster switched off, or reset while the packet was on its way, answers RESET_ABORT. No byte
changes, and the turn of the port passes on.

A write of the host or Meridian at a core's port needs no window while the core is not RUNNING (R142): it commits at once where nothing stands before
it, and is ADDRESS in a powered-down half (R138). To a RUNNING core it needs a window that reaches the partition, and finds none in a powered-down half.
No byte changes but those written. -/
def Obligations.CheckPoints : Prop :=
  (∀ s c pid p i kind red, (i = Instr.writePacketArrive pid ∧ kind = PktKind.write ∧ red = none) ∨
       (i = Instr.reductionPacketArrive pid ∧ kind = PktKind.reduction ∧ red = some p.fmt) →
     awake s = true → atCore s pid kind = some (c, p) → ∀ off n sc ws, off = p.addr % 32768 → n = p.data.length →
     sc = max p.scope (writerScope p.src c) → ws = ((List.range 4).filter fun w =>
       (getWin (getCore s c) w).isOpen && winHolds (getWin (getCore s c) w) off n && decide (sc ≤ (getWin (getCore s c) w).scope)) →
     ((getClu s (lciDc c)).pwr.st = .on → p.stale = false → off < 0x7000 → linesDown s c (linesOf off n) = false →
       (ws ≠ [] → ∃ t, exec i s = .next t ∧ (getCore t c).held = (getCore s c).held ++
           [⟨p.id, ws, off, p.data, red, qntHolds (getCore s c) off p.data.length⟩] ∧
         (getCore t c).spm = (getCore s c).spm ∧ (∀ d, d ≠ c → getCore t d = getCore s d) ∧ t.mem = s.mem) ∧
       (ws = [] → ∀ w, ((List.range 4).find? fun w => ((getWin (getCore s c) w).held || (getWin (getCore s c) w).closing) &&
           winHolds (getWin (getCore s c) w) off n) = some w →
         exec i s = .next (ofPackage s (dropPkt p.id (answerPkt p .windowClosed 0 (countDrop c w (passOut p s)))))) ∧
       (ws = [] → ((List.range 4).find? fun w => ((getWin (getCore s c) w).held || (getWin (getCore s c) w).closing) &&
           winHolds (getWin (getCore s c) w) off n) = none →
         exec i s = .next (ofPackage s (dropPkt p.id (answerPkt p .noWindow 0 (passOut p s)))))) ∧
     ((getClu s (lciDc c)).pwr.st = .on → p.stale = false → off < 0x7000 → linesDown s c (linesOf off n) = true →
       exec i s = .next (ofPackage s (dropPkt p.id (answerPkt p .noWindow 0 (passOut p s))))) ∧
     ((getClu s (lciDc c)).pwr.st ≠ .on ∨ p.stale = true →
       exec i s = .next (ofPackage s (dropPkt p.id (answerPkt p .resetAbort 0 (passOut p s))))) ∧
     ((getClu s (lciDc c)).pwr.st = .on → p.stale = false → 0x7000 ≤ off →
       exec i s = .next (ofPackage s (dropPkt p.id (answerPkt p .address p.addr (passOut p s)))))) ∧
  (∀ s c off data, (getClu s (lciDc c)).pwr.st = .on → off + data.length ≤ 0x7000 → off < 0x7000 → ∀ t e, outsideArrive c off data .leadIo s = (t, e) →
     ((getCore s c).st ≠ .running → linesDown s c (linesOf off data.length) = false → mustHold s c off data.length [] .leadIo = false →
       (getCore s c).spmFlips = [] → e = .done .commit 0 ∧ t.mem = s.mem ∧ t.net = s.net ∧ (∀ d, d ≠ c → getCore t d = getCore s d) ∧
         ∀ a, memByte (getCore t c).spm a = if off ≤ a ∧ a < off + data.length then (data.getD (a - off) none).getD (memByte (getCore s c).spm a)
           else memByte (getCore s c).spm a) ∧
     ((getCore s c).st ≠ .running → linesDown s c (linesOf off data.length) = true → t = s ∧ e = .done .address (spmPa c off)) ∧
     ((getCore s c).st = .running → linesDown s c (linesOf off data.length) = true → t = s ∧ e = .done .noWindow (spmPa c off)) ∧
     ((getCore s c).st = .running → (∀ w, w < 4 → ((getWin (getCore s c) w).isOpen = false ∨ winHolds (getWin (getCore s c) w) off data.length = false ∨
         (getWin (getCore s c) w).scope < 2) ∧ ((getWin (getCore s c) w).held = false ∧ (getWin (getCore s c) w).closing = false ∨
         winHolds (getWin (getCore s c) w) off data.length = false)) → t = s ∧ e = .done .noWindow (spmPa c off)))

/-- An admitted packet whose turn has come is committed: a write's masked bytes replace those of the window, a reduction's are added to
them; no other byte changes, the packet leaves the owner, and its source is answered COMMIT. -/
def Obligations.PacketCommits : Prop :=
  ∀ s c pid h p, awake s = true → (getCore s c).held.find? (fun x => x.pid == pid) = some h → findPkt s pid = some p →
    mayCommit s (getCore s c) h = true → (getClu s (lciDc c)).pwr.st = .on → (getCore s c).spmFlips = [] → ∀ bs,
    bs = (match h.red with
      | none => h.data
      | some f => redSum f ((spmBytes s c h.off h.data.length).map some) h.data) →
    ∃ t a, exec (.packetCommit c pid) s = .next t ∧
      (∀ x, memByte (getCore t c).spm x =
        if h.off ≤ x ∧ x < h.off + bs.length then (bs.getD (x - h.off) none).getD (memByte (getCore s c).spm x)
        else memByte (getCore s c).spm x) ∧
      (getCore t c).held = ((getCore s c).held.filter fun x => x.pid != pid) ∧ t.mem = s.mem ∧
      t.net.pkts = (s.net.pkts ++ [a]).filter (fun x => x.id != pid) ∧
      a.kind = .answer ∧ a.dst = p.src ∧ a.req = p.id ∧ a.status = .commit

/-- A remote read at a core port answers the line's contents at one instant and changes no core; a core switched off, or reset
while the request was on its way, answers RESET_ABORT.

A read response at its core: its bytes are written to the line reserved for them, the macro-op no longer waits for it, and the core may
send a further request. -/
def Obligations.RemoteReads : Prop :=
  (∀ s c pid p, awake s = true → atCore s pid .readReq = some (c, p) →
     ((getClu s (lciDc c)).pwr.st = .on → p.stale = false → (getCore s c).spmFlips = [] → ∃ t a, exec (.remoteReadArrive pid []) s = .next t ∧
       t.net.pkts = (s.net.pkts ++ [a]).filter (fun x => x.id != p.id) ∧ a.kind = .readResp ∧ a.dst = p.src ∧ a.req = p.id ∧
       a.status = .commit ∧ a.data = (windowBytes s c (p.addr % 32768) p.len).map some ∧ t.cores = s.cores ∧ t.mem = s.mem) ∧
     ((getClu s (lciDc c)).pwr.st ≠ .on ∨ p.stale = true →
       exec (.remoteReadArrive pid []) s = .next (ofPackage s (dropPkt p.id (respondPkt p .resetAbort 0 [] (passOut p s)))))) ∧
  (∀ s c pid p o, awake s = true → atCore s pid .readResp = some (c, p) → (getCore s c).out.find? (fun o => o.pid == p.req) = some o →
     p.status = .commit → (getCore s c).spmFlips = [] → s.stuck = [] → (∃ b ∈ p.data, b.isSome = true) → ∀ u,
     u = updCore (dropPkt pid (passOut p s)) c (fun k => { k with
       out := k.out.filter fun x => x.pid != p.req
       ops := mapIf (fun q => q.id == o.op) (fun q => { q with waits := setDel q.waits p.req }) k.ops }) →
     exec (.readResponseArrive pid) s = .next (ofPackage s (sendAll c (updCore (countRx (.core c) p.data.length u) c fun k => { k with
       spm := memMask k.spm o.loc p.data
       lineValid := (linesOf o.loc p.data.length).foldl setIns k.lineValid
       spmFlips := [] }))))

/-- An answer at the switch that combined leaves it as one copy for each contributor and frees the entry; at its source core it settles
the request, and the core may send further packets.

Two reduction packets that a switch may combine become one, which carries their sum in the place of the earlier; the answer table
notes both. With the table full they stay as they are and only the switch's counter moves. -/
def Obligations.Answers : Prop :=
  (∀ s pid p, awake s = true → findPkt s pid = some p → p.kind = .answer →
     (∀ e, tableEntry s p = some e → exec (.fabricAnswer pid) s = .next (ofPackage s (copyBack p e s)) ∧
       (copyBack p e s).net.table = s.net.table.filter fun x => x.pid != e.pid) ∧
     (tableEntry s p = none → arrived s p = true → ∀ c, p.dst = .core c → ∀ o, (getCore s c).out.find? (fun o => o.pid == p.req) = some o →
       p.status = .commit → exec (.fabricAnswer pid) s = .next (ofPackage s (sendAll c (updCore (dropPkt pid (passOut p s)) c fun k =>
         { k with out := k.out.filter fun x => x.pid != p.req })))) ∧
     (tableEntry s p = none → arrived s p = true → ∀ c, p.dst = .core c → ∀ o, (getCore s c).out.find? (fun o => o.pid == p.req) = some o →
       p.status = .windowClosed ∨ p.status = .noWindow ∨ p.status = .resetAbort →
       exec (.fabricAnswer pid) s = .next (ofPackage s (sendAll c (coreEvent c p.status.fault o.opcode (updCore (dropPkt pid (passOut p s)) c fun k =>
         dropNotify o.op { k with out := k.out.filter fun x => x.pid != p.req })))))) ∧
  (∀ s sw a b p q, awake s = true → s.net.pkts.filter (fun x => x.id == a || x.id == b) = [p, q] → p.stamp ≤ q.stamp → combinable sw p q = true →
     ((s.net.table.filter fun e => e.sw == sw).length < tableRoom sw → ∃ t, exec (.reductionCombine sw a b) s = .next t ∧
       t.net.table = s.net.table ++ [{ sw := sw, pid := s.net.nextId, a := p.id, b := q.id, srcA := p.src, srcB := q.src }] ∧
       t.net.pkts = ((s.net.pkts.filter fun x => x.id != q.id).map fun x => if x.id = p.id then
         { p with id := s.net.nextId, data := redSum p.fmt p.data q.data, scope := max (pktScope p) (pktScope q) } else x) ∧
       t.cores = s.cores ∧ t.mem = s.mem) ∧
     (tableRoom sw ≤ (s.net.table.filter fun e => e.sw == sw).length → ∃ t, exec (.reductionCombine sw a b) s = .next t ∧
       t.net.pkts = s.net.pkts ∧ t.net.table = s.net.table ∧ t.cores = s.cores ∧ t.mem = s.mem))

/-- A packet that its switch serves next passes a hop whose CRC is right, and the turn passes on; a CRC error is counted and retried three times,
and the fourth in a row makes the hop a hard fault that stays in force. A packet whose turn has not come (R161) stays where it is. Of a packet
that its sender's own command delivers, the fourth CRC error in a row at a hop makes it a hard fault too.

A packet of the vertical channel moves the next piece of a VLD or VST between the slice and the scratchpad; a CRC error is counted and
retried three times, and the fourth in a row is BUS_ERROR. With no packet of the DMA engine or of a spring sequence on the channel, nothing happens;
a packet of theirs that fails is retried alike, and the fourth failure in a row of the engine's ends its descriptor.

The bus takes the first broadcast VLD of the sequencer whose interlocks are clear in every core, when it is free and the sequencer's turn has come: the
governing core's pieces go to every core of the stream, whose macro-ops have then had their effect. One piece puts its bytes into the scratchpads of all
those cores. -/
def Obligations.Fabric : Prop :=
  ((∀ s pid p h hs ok, awake s = true → findPkt s pid = some p → p.hops = h :: hs →
     (served s p = true → ok = true → h ∉ s.net.hard → crossesOut s p = false → regionDead s p.dst = false →
       ∃ t, exec (.fabricHopReceive pid ⟨none, ok⟩) s = .next t ∧ t.net.pkts = (s.net.pkts.map fun q => if q.id = pid then
         { p with hops := hs, retries := 0, stamp := s.net.nextId } else q) ∧ t.net.hard = s.net.hard ∧
         t.net.turns = (passOut p s).net.turns ∧ t.cores = s.cores ∧ t.mem = s.mem) ∧
     (served s p = true → ok = false → p.retries < 3 → ∃ t, exec (.fabricHopReceive pid ⟨none, ok⟩) s = .next t ∧
       t.net.pkts = mapIf (fun q => q.id == pid) (fun q => { q with retries := q.retries + 1 }) s.net.pkts ∧
       t.cores = s.cores ∧ t.mem = s.mem) ∧
     (served s p = true → ok = false → 3 ≤ p.retries → ∃ t, exec (.fabricHopReceive pid ⟨none, ok⟩) s = .next t ∧ h ∈ t.net.hard) ∧
     (served s p = false → exec (.fabricHopReceive pid ⟨none, ok⟩) s = .next s)) ∧
   ∀ s pid h n, awake s = true → h ∉ s.net.hard → n = ((s.net.tries.find? fun e => e.1 == h).map (·.2)).getD 0 →
     (n < 3 → ∃ t, exec (.fabricHopReceive pid ⟨some h, false⟩) s = .next t ∧ t.net.hard = s.net.hard ∧ (h, n + 1) ∈ t.net.tries) ∧
     (3 ≤ n → ∃ t, exec (.fabricHopReceive pid ⟨some h, false⟩) s = .next t ∧ t.net.hard = s.net.hard ++ [h] ∧ ∀ m, (h, m) ∉ t.net.tries)) ∧
  ((∀ s c p x xs l, awake s = true → (getClu s (lciDc c)).pwr.st = .on → vOldest s c = some p → p.todo = x :: xs → paLoc s x.far = some l →
     ∀ v u, v = updCore s c (fun k => { k with vRetries := smapSet 0 k.vRetries 0 0 }) → u = countAct (lciDc c) akVertical 1 v →
     (mwOp p.word = ocVld → s.mem.flips = [] → s.mem.poison = [] → railDead s l = false → (getCore s c).spmFlips = [] → s.stuck = [] → 0 < x.n →
       exec (.verticalPacketReceive c ⟨.transfer, true⟩) s = .next (ofPackage s (updOp c p.id (fun q => { q with todo := q.todo.drop 1 })
         (updCore (countMem l x.n u) c fun k => { k with
           spm := memMask k.spm x.loc ((memBytes s.mem.bytes l x.n).map some)
           lineValid := (linesOf x.loc x.n).foldl setIns k.lineValid
           spmFlips := [] })))) ∧
     (mwOp p.word = ocVst → (getCore s c).spmFlips = [] → ∀ m, memStore l ((spmBytes s c x.loc x.n).map some) false u = (m, none) →
       exec (.verticalPacketReceive c ⟨.transfer, true⟩) s = .next (ofPackage s (updOp c p.id (fun q => { q with todo := q.todo.drop 1 }) m))) ∧
     (smapGet 0 (getCore s c).vRetries 0 < 3 → exec (.verticalPacketReceive c ⟨.transfer, false⟩) s = .next (updClu (updCore s c fun k => { k with
       vRetries := smapSet 0 k.vRetries 0 (smapGet 0 k.vRetries 0 + 1) }) (lciDc c) fun q => { q with fabRetry := q.fabRetry + 1 })) ∧
     (3 ≤ smapGet 0 (getCore s c).vRetries 0 →
       exec (.verticalPacketReceive c ⟨.transfer, false⟩) s = .next (ofPackage s (opFault c p fcBusError x.far (repairCoreCol c v))))) ∧
   ∀ s c, awake s = true → (getClu s (lciDc c)).pwr.st = .on →
     (∀ u ok, vBusy s c u = false → exec (.verticalPacketReceive c ⟨u, ok⟩) s = .next s) ∧
     (dmaUses s c = true → smapGet 0 (getCore s c).vRetries 1 < 3 →
       exec (.verticalPacketReceive c ⟨.dma, false⟩) s = .next (updClu (updCore s c fun k => { k with
         vRetries := smapSet 0 k.vRetries 1 (smapGet 0 k.vRetries 1 + 1) }) (lciDc c) fun q => { q with fabRetry := q.fabRetry + 1 })) ∧
     (dmaUses s c = true → 3 ≤ smapGet 0 (getCore s c).vRetries 1 →
       ∃ t, exec (.verticalPacketReceive c ⟨.dma, false⟩) s = .next t ∧ (getDma t (lciDc c)).st = .error ∧ (getDma t (lciDc c)).code = fcBusError)) ∧
  ((∀ s dc n i cs g gs p, awake s = true → busTaken s dc = false → busNext s dc = some n → bcastIdx s dc n = some i →
     cs = (bcastCores s dc n).filterMap (fun c => ((bcastOps (getCore s c))[i]?).map fun p => (c, p.id)) → cs = g :: gs →
     findOp (getCore s g.1) g.2 = some p → ∀ u, u = updClu s dc (fun k => { k with busLast := n }) →
     exec (.broadcastVldStart dc n) s = .next (ofPackage s (bcastRun dc cs p u)) ∧
     ∀ x q y, bcastXl dc p (farPages p) u = (x, q, none) → bcastPieces cs (formPieces q) x = (y, none) →
       bcastRun dc cs p u = forEach cs (fun s c => updOp c.1 c.2 (fun q => { q with started := true, formed := true }) s) y) ∧
   ∀ s cs x l m bs, paLoc s x.far = some l → memLoad l x.n 1 s = (m, none, bs) → m.stuck = [] →
     (∀ c ∈ cs, findOp (getCore m c.1) c.2 ≠ none ∧ (getCore m c.1).spmFlips = []) →
     (bcastPiece cs x s).2 = none ∧ (∀ c ∈ cs, ∀ a, memByte (getCore (bcastPiece cs x s).1 c.1).spm a =
       memByte (memPuts (getCore m c.1).spm x.loc bs) a) ∧ ∀ d, (∀ c ∈ cs, d ≠ c.1) → getCore (bcastPiece cs x s).1 d = getCore m d)

/-- A write at a column memory port, or one that has waited for its fill entry, puts its masked bytes into its word and changes no other
byte; the word's granule or page, or its fill, then holds it, and the source is answered COMMIT. A first write into a page whose die has
no fill entry free waits, and is counted.

A read at a column memory port answers the bytes of its words, where no error stands in them, and changes no byte of memory. -/
def Obligations.MemoryAccess : Prop :=
  (∀ s i pid l p, (i = Instr.memoryWriteArrive pid ∧ p.waitFill = false) ∨ (i = Instr.fillEntryWait pid ∧ p.waitFill = true) →
     awake s = true → atColumn s pid .write = some (l, p) →
     (fillBusy s l = false → s.mem.flips = [] → s.mem.poison = [] → railDead s l = false → 0 < p.data.length →
       l % 128 + p.data.length ≤ 128 → ∃ t a, exec i s = .next t ∧
         (∀ x, memByte t.mem.bytes x = if l ≤ x ∧ x < l + p.data.length
           then (p.data.getD (x - l) none).getD (memByte s.mem.bytes x) else memByte s.mem.bytes x) ∧
         wordValid t (l / 128) = true ∧ t.cores = s.cores ∧
         t.net.pkts = (s.net.pkts ++ [a]).filter (fun x => x.id != p.id) ∧ a.kind = .answer ∧ a.dst = p.src ∧ a.req = p.id ∧
         a.status = .commit) ∧
     (fillBusy s l = true → p.waitFill = false → exec i s = .next (updClu (updNet s fun t => { t with
       pkts := mapIf (fun q => q.id == pid) (fun q => { q with waitFill := true }) t.pkts }) (locDc l) fun k =>
         { k with fillWait := k.fillWait + 1 })) ∧
     (fillBusy s l = true → p.waitFill = true → exec i s = .next s)) ∧
  (∀ s pid l p, awake s = true → atColumn s pid .readReq = some (l, p) → s.mem.flips = [] → s.mem.poison = [] → railDead s l = false →
     ∃ t a, exec (.memoryReadArrive pid [] false) s = .next t ∧ t.mem = s.mem ∧ t.cores = s.cores ∧
       t.net.pkts = (s.net.pkts ++ [a]).filter (fun x => x.id != pid) ∧ a.kind = .readResp ∧ a.dst = p.src ∧ a.req = p.id ∧
       a.status = .commit ∧ a.data = (memBytes s.mem.bytes l p.len).map some)

/-- What the decoder makes of a valid word: one or two symbol errors are corrected, counted and written back later, and no byte changes;
three errors, or poison with two, leave the word poisoned with its data symbols as read, and deliver nothing; so do four or more errors, poison
counted, that the decoder cannot take for one or two; poison alone, or with one error, delivers nothing.

Upkeep of the arrays, where no cell of them sticks: a fill completes with its page valid; a corrected word is written back unless a write came
first; the patrol scrub of a powered stack reads its next valid word, or ends its pass (its order and pace: log entry 46, DEDUCED); a refresh that falls
due on a bank that no spring step holds is done at once, and on a held bank it is counted (R203 to R205), where the fifth suspends the step and
pre-empts its sequence (R226); doubled refresh ends once every reading is at or below 83.0 °C. -/
def Obligations.MemoryIntegrity : Prop :=
  (∀ s w rq, wordValid s w = true → ∀ errs, errs = smapGet [] s.mem.flips w →
     (errs = [] → s.mem.poison.contains w = false → readWord w rq s = (s, true)) ∧
     ((errs.length = 1 ∨ errs.length = 2) → s.mem.poison.contains w = false → (readWord w rq s).2 = true ∧
       w ∈ (readWord w rq s).1.mem.writeBack ∧ (readWord w rq s).1.mem.bytes = s.mem.bytes ∧
       (locIsTarn (w * 128) = true → (getStk (readWord w rq s).1 (dcDie (locDc (w * 128)))).ceTarn =
         (getStk s (dcDie (locDc (w * 128)))).ceTarn + 1)) ∧
     (s.stuckMem = [] → ((errs.length = 3 ∧ s.mem.poison.contains w = false) ∨ (errs.length = 2 ∧ s.mem.poison.contains w = true) ∨
         (4 ≤ errs.length + bit (s.mem.poison.contains w) ∧
           memLocate (errs ++ (if s.mem.poison.contains w then [(69, 0xFFFF)] else [])) = none)) →
       (readWord w rq s).2 = false ∧ w ∈ (readWord w rq s).1.mem.poison ∧ (readWord w rq s).1.mem.bytes = xorSymbols w errs s.mem.bytes ∧
       smapGet [] (readWord w rq s).1.mem.flips w = []) ∧
     (errs.length ≤ 1 → s.mem.poison.contains w = true → (readWord w rq s).2 = false ∧
       (readWord w rq s).1.mem.bytes = s.mem.bytes ∧ (getStk (readWord w rq s).1 (dcDie (locDc (w * 128)))).poisonReads =
         (getStk s (dcDie (locDc (w * 128)))).poisonReads + 1)) ∧
  (∀ s, awake s = true → s.stuckMem = [] →
     (∀ page, (∃ f ∈ s.mem.fills, f.page = page) → exec (.dramFillComplete page) s = .next (updMem s fun m => { m with
       fills := m.fills.filter fun f => f.page != page, dramValid := setIns m.dramValid page })) ∧
     (∀ w, bankHeld s (w * 128) = false → (w ∈ s.mem.writeBack → exec (.correctedWriteback w) s = .next (updMem s fun m => { m with
       flips := smapErase m.flips w, writeBack := setDel m.writeBack w })) ∧
       (w ∉ s.mem.writeBack → exec (.correctedWriteback w) s = .next s)) ∧
     (∀ k d up, k < 6 → (getStk s k).scrubEn = true → memPowered s k = true → (d < 4 → d < s.mdies) → ∀ o,
       o = nextWord (if d < 4 then 32 else 4) (scrubAt s k d) (scrubGroups s k d) →
       (∀ a l, o = some a → paLoc s (a * 128) = some l → bankHeld s l = false →
         exec (.patrolScrubRead k d up) s = .next (ofPackage s (scrubTo k d (a + 1) (readWord (l / 128) 9 (strike (l / 128) up s)).1))) ∧
       (o = none → exec (.patrolScrubRead k d up) s = .next (scrubPassed k d s))) ∧
     (∀ k d up, (getStk s k).scrubEn = false ∨ memPowered s k = false → exec (.patrolScrubRead k d up) s = .next s) ∧
     (∀ k d col b, ((getClu s (k * 256 + col)).spr.running.find? fun t => t.mdie == d && t.banks.contains b) = none →
       exec (.refreshDue k d col b) s = .next s) ∧
     (∀ k d col b x n, (getClu s (k * 256 + col)).spr.running.find? (fun t => t.mdie == d && t.banks.contains b) = some x →
       n = smapGet 0 x.dues b + 1 → ∃ t, exec (.refreshDue k d col b) s = .next t ∧
         (getClu t (k * 256 + col)).spr.running = mapIf (fun y => y.mdie == d)
           (fun _ => { x with dues := smapSet 0 x.dues b n, suspended := x.suspended || n == 5 }) (getClu s (k * 256 + col)).spr.running ∧
         (n = 5 ∧ x.suspended = false → (getMDie t k d).preempt = (getMDie s k d).preempt + 1) ∧
         (n ≠ 5 ∨ x.suspended = true → t.stks = s.stks) ∧ t.mem = s.mem) ∧
     (∀ k d, k < 6 → d < s.mdies → ((∀ x ∈ dieReadings s k d, x ≤ 664) →
       exec (.dieRefHotClear k d) s = .next (updMDie s k d fun x => { x with hot := false, src := dieModelled s k d })) ∧
       ((∃ x ∈ dieReadings s k d, 664 < x) → exec (.dieRefHotClear k d) s = .next s)))

/-- A submission whose turn has come, with an entry free and its submitter's writes answered, is accepted behind the sequences already
there; one whose descriptor breaks the form of its kind, or that finds the queue disabled, its partition in SALVAGE or draining (the model's choice
where it drains, log entry 107), is refused. -/
def Obligations.SpringAccepts : Prop :=
  ∀ s dc i w, awake s = true → (getSpr s dc).waiting[i]? = some w →
    (sprAcceptable s dc i w = false → exec (.springQueueAccept dc i) s = .next s) ∧
    (sprAcceptable s dc i w = true → ∀ u,
      u = spqTaken w (updSpr s dc fun r => { r with waiting := r.waiting.eraseIdx i, nextId := r.nextId + 1 }) →
      (descRefused w.desc w.core.isNone = false → (getSpr s dc).en = true → s.dev.st ≠ .salvage → inSalvage s dc = false → inDrain s dc = false →
        exec (.springQueueAccept dc i) s = .next (ofPackage s (sprStart dc (updSpr u dc fun r =>
          { r with seqs := r.seqs ++ [seqOfWait (getSpr s dc) w] })))) ∧
      (∀ c st, w.core = some c → (descRefused w.desc false = true ∧ st = ssDesc ∨ descRefused w.desc false = false ∧ st = ssUnavailable ∧
          ((getSpr s dc).en = false ∨ s.dev.st = .salvage ∨ inSalvage s dc = true ∨ inDrain s dc = true)) →
        exec (.springQueueAccept dc i) s = .next (ofPackage s (coreEvent c fcSpringRefused ocSpq (sprReport dc
          (seqOfWait (getSpr s dc) w) (sprRecord (seqOfWait (getSpr s dc) w) st) (updSpr u dc fun r =>
            { r with refused := r.refused + 1 }))))))

/-- The permit of a column and memory die goes to the first unit after the one granted last that has a step ready, while no step of that
die runs and no access waits for the banks that it would hold (R214, R225); a suspended step goes on with its refreshes done (R226); a step's end writes
its results and releases its banks and the permit. A sequence that fails or is aborted ends with its last running step: its suspended steps stop at once.
Of several sequences with a step ready for one unit the first accepted goes first (the model's choice, log entry 118).

Meridian submits the 128 bytes of a descriptor in the cluster's own slice, which then wait like any other submission; an abort ends every
sequence that no running step holds. A cluster that is switched off takes neither write (log entry 64, DEDUCED). -/
def Obligations.SpringRuns : Prop :=
  (∀ s dc d, awake s = true →
     ((∀ t ∈ (getSpr s dc).running, t.mdie ≠ d) → (getMDie s (dcDie dc) d).withheld = false → d < s.mdies → ∀ o,
       o = (((List.range 4).map fun i => (smapGet 3 (getSpr s dc).lastUnit d + 1 + i) % 4).findSome? fun u =>
         (getSpr s dc).seqs.findSome? (readyStep s dc d u)) →
       (o = none → exec (.springPermitGrant dc d) s = .next s) ∧
       (∀ t, o = some t → accessWaits s dc t = true → exec (.springPermitGrant dc d) s = .next s) ∧
       (∀ t, o = some t → accessWaits s dc t = false → exec (.springPermitGrant dc d) s = .next (updSpr s dc fun r =>
         { r with running := r.running ++ [t], lastUnit := smapSet 3 r.lastUnit d t.unit }))) ∧
     exec (.springStepResume dc d) s = .next (updSpr s dc fun r => { r with
       running := mapIf (fun t => t.mdie == d && t.suspended) (fun t => { t with suspended := false }) r.running }) ∧
     (∀ t q, (getSpr s dc).running.find? (fun t => t.mdie == d && !t.suspended) = some t →
       (getSpr s dc).seqs.find? (fun q => q.id == t.seq) = some q → ∀ x e q1,
       stepWork dc t q (countAct dc (akSpring d) 1 (updSpr s dc fun r => { r with running := r.running.filter fun y => y.mdie != d })) = (x, e, q1) →
       ∀ q2 y, q2 = { q1 with steps := q.steps + if e = 0 then 1 else 0 } → y = updSpr x dc (fun r => { r with
           steps := if e = 0 then r.steps + 1 else r.steps, seqs := r.seqs.map fun z => if z.id = q.id then q2 else z }) →
         (e ≠ 0 ∨ q.ending ≠ none → exec (.springStepEnd dc d) s = .next (ofPackage s (sprEnding dc q.id e y))) ∧
         (e = 0 → q.ending = none → seqComplete q2 = true → exec (.springStepEnd dc d) s = .next (ofPackage s (seqFinish dc q2 y))) ∧
         (e = 0 → q.ending = none → seqComplete q2 = false → exec (.springStepEnd dc d) s = .next (ofPackage s y))) ∧
     ∀ id st, ((∃ t ∈ (getSpr s dc).running, t.seq = id ∧ t.suspended = false) → sprEnding dc id st s = updSpr s dc fun r => { r with
         running := r.running.filter fun t => t.seq != id || !t.suspended
         seqs := mapIf (fun y => y.id == id) (fun y => { y with ending := some (y.ending.getD st) }) r.seqs }) ∧
       ((∀ t ∈ (getSpr s dc).running, t.seq = id → t.suspended = true) → ∀ z ∈ (getSpr (sprEnding dc id st s) dc).seqs, z.id ≠ id)) ∧
  (∀ s dc, awake s = true →
     (cluWritable s dc = true → ∀ pa l l' m bs, pa < 2 ^ 48 → paLoc s pa = some l → paLoc s (pa + 127) = some l' →
       locIsTarn l = true → locDc l = dc → locIsTarn l' = true → locDc l' = dc → pa + 127 < 2 ^ 48 → memLoad l 128 5 s = (m, none, bs) →
       exec (.sprSubmit dc pa) s = .next (ofPackage s (updSpr m dc fun r => { r with waiting := r.waiting ++
         [{ core := none, op := 0, flag := 0, desc := bs, phys := true, recAddr := pa + 16, after := [], afterOps := [], maddr := 0 }] }))) ∧
     (cluWritable s dc = true → exec (.sprCtrlAbort dc) s = .next (ofPackage s (sprAbort dc (fun _ => true) s)) ∧
       ((getSpr s dc).running = [] → (getSpr (sprAbort dc (fun _ => true) s) dc).seqs = [])) ∧
     (cluWritable s dc = false → (∀ pa, exec (.sprSubmit dc pa) s = .next s) ∧ exec (.sprCtrlAbort dc) s = .next s))

/-- A chain starts from its head unless it runs already, while its partition is RUNNING (R311): the 64 bytes of the descriptor are read from the
cluster's own slice, and its first iteration waits for its flag or copies; a descriptor that breaks R200 ends in ERROR with its code. What other
partition states keep from starting is left as it is (log entry 105, DEDUCED).

STOP ends a waiting chain at once and a running one after the row in progress; the flag an iteration waits for is taken in one step;
an iteration copies its rows, signals, and goes on to the next iteration, the next descriptor or the end; a failed copy is ERROR. A copy that meets
something it must wait for, a bank that a spring step holds above all, has no effect yet, and the engine notes the bank (log entry 105, DEDUCED). -/
def Obligations.DmaEngine : Prop :=
  (∀ s dc, awake s = true → cluWritable s dc = true →
     (((getDma s dc).st = .idle ∨ (getDma s dc).st = .ended ∨ (getDma s dc).st = .error) → partRunning s dc = true → ∀ a u x ps y bs,
       a = (getDma s dc).head → u = updDma s dc (fun m => { m with descAddr := a, st := .running, cur := none, waits := none }) →
       xlRange (.cluster dc) (dcPart s dc) false false (cutPages a 64) u = (x, .ok ps) → ownSide x dc ps = some .tarn →
       loadPieces 4 ps x = (y, none, bs) →
       (dmaCheck (dmaParse bs) = none → exec (.cluDmaStart dc) s = .next (ofPackage s (updDma y dc fun m => { m with
         cur := some (dmaParse bs), iter := 0, waits := none, taken := (dmaParse bs).wcount == 0
         st := if (dmaParse bs).wcount = 0 then .running else .waiting }))) ∧
       (∀ code, dmaCheck (dmaParse bs) = some code → exec (.cluDmaStart dc) s = .next (ofPackage s (dmaError dc code y)))) ∧
     (((getDma s dc).st = .running ∨ (getDma s dc).st = .waiting ∨ partRunning s dc = false) → exec (.cluDmaStart dc) s = .next s)) ∧
  (∀ s dc, awake s = true → s.blocked = none →
     (cluWritable s dc = true → (getDma s dc).st = .waiting → ∀ n, exec (.cluDmaStop dc n) s =
       .next (updDma s dc fun d => { d with st := .ended, cur := none, waits := none })) ∧
     (cluWritable s dc = true → (getDma s dc).st = .running → ∀ d n k x, (getDma s dc).cur = some d → k = min d.rows (max 1 n) →
       dmaCopy dc d (getDma s dc).iter k s = (x, 0) → x.blocked = none → exec (.cluDmaStop dc n) s =
         .next (ofPackage s (dmaEnded dc (if k = d.rows then dmaSignal dc d x else x)))) ∧
     ((getDma s dc).st = .waiting → ∀ d c, (getDma s dc).cur = some d → c = dc * 1024 + d.wcore →
       (d.wcount ≤ (smapGet 0 (getCore s c).flags d.wflag).toNat → exec (.dmaFlagWaitSatisfied dc) s = .next (updDma (updCore s c fun k =>
         { k with flags := smapSet 0 k.flags d.wflag (smapGet 0 k.flags d.wflag - BitVec.ofNat 16 d.wcount) }) dc fun m =>
           { m with taken := true, st := .running })) ∧
       ((smapGet 0 (getCore s c).flags d.wflag).toNat < d.wcount → exec (.dmaFlagWaitSatisfied dc) s = .next s)) ∧
     ((getDma s dc).st = .running → ∀ d x e, (getDma s dc).cur = some d → dmaCopy dc d (getDma s dc).iter d.rows s = (x, e) →
       (e ≠ 0 → x.blocked = none → exec (.dmaIterationComplete dc) s = .next (ofPackage s (dmaError dc e x))) ∧
       (∀ l r, x.blocked = some (.bank l r) → exec (.dmaIterationComplete dc) s = .next (updDma s dc fun m => { m with waits := some l })) ∧
       (∀ w, x.blocked = some w → (∀ l r, w ≠ .bank l r) → exec (.dmaIterationComplete dc) s = .next s) ∧
       (e = 0 → x.blocked = none → exec (.dmaIterationComplete dc) s = .next (ofPackage s (dmaWaits dc s (
         if (getDma s dc).iter + 1 < d.rep then dmaBegin dc d ((getDma s dc).iter + 1) (dmaSignal dc d x)
         else if d.last then dmaEnded dc (dmaSignal dc d x) else dmaLoad dc d.next (dmaSignal dc d x)))))))

/-- One level of a table walk, whose entries have the form of R195: an entry that is valid and no leaf names the next table; a leaf at level 2 or 3 is
the translation; an entry that breaks its form, and a leaf elsewhere, have no translation. Where the way to the table is whole and its word stands, the
entry is the table's.

A walk that completes gives its translation to the access it delayed: a sequencer fetches its unit, a transfer goes on; the KV walker of
a cluster completes its walks in order (R256).

A write of the root sets it and drops every held translation; an invalidation removes what it names at once, or waits behind an
earlier one, and completes once no access in progress used what it removed. A cluster that is not switched on takes none of these writes (log entry 64,
DEDUCED). -/
def Obligations.Translation : Prop :=
  ((∀ s u part va fuel level table, ∀ l m e, table % levelTable level = 0 → paInPart s part table (levelTable level) = true →
     paLoc s (table + 8 * levelIndex level va) = some l → walkRead u (table + 8 * levelIndex level va) l s = (m, none, e) →
     (entOk e = false → walkFrom u part va (fuel + 1) level table s = (m, .fault)) ∧
     (entOk e = true → entLeaf e = false → level < 3 →
       walkFrom u part va (fuel + 1) level table s = walkFrom u part va fuel (level + 1) (entPa e) m) ∧
     (entOk e = true → entLeaf e = true → (level = 2 ∨ level = 3) → entPa e % levelPage level = 0 →
       paInPart m part (entPa e) (levelPage level) = true → walkFrom u part va (fuel + 1) level table s = (m, .ok
         { part := part, va := va / levelPage level * levelPage level, size := levelPage level, pa := entPa e, w := entW e
           spr := entSpr e, ext := entExt e })) ∧
     (entOk e = true → entLeaf e = true → level < 2 → walkFrom u part va (fuel + 1) level table s = (m, .fault))) ∧
   ∀ s u pa l, s.net.hard = [] → s.mem.flips = [] → s.mem.poison = [] → railDead s l = false → bankHeld s l = false →
     regionDead s (.column (locDc l)) = false → regionDead s (unitEp u) = false →
     (walkRead u pa l s).2 = (none, leNat (memBytes s.mem.bytes l 8)) ∧ (walkRead u pa l s).1.mem.bytes = s.mem.bytes ∧
       (walkRead u pa l s).1.cores = s.cores) ∧
  (∀ s id w kv i, (i = Instr.translationWalkComplete id ∧ kv = false) ∨ (i = Instr.kvWalkComplete id ∧ kv = true) →
     awake s = true → s.walks.find? (fun w => w.id == id && w.kv == kv) = some w →
     (kv = true → s.walks.find? (fun x => x.kv && x.who == w.who) = some w) → ∀ u e,
     xlWalk w.who w.part w.va w.kv { s with walks := s.walks.filter fun x => x.id != w.id } = (u, e) →
     (∀ n dc, w.req = .seq n → w.who = .cluster dc → exec i s = .next (ofPackage s (seqWalked dc n w.va e u))) ∧
     (∀ c op p t, w.req = .op c op → findOp (getCore u c) op = some p → e = .ok t →
       exec i s = .next (ofPackage s (resolveOp c op (takePage c op (w.va / 0x1_0000) t u)))) ∧
     (∀ c op p, w.req = .op c op → findOp (getCore u c) op = some p → e = .fault →
       exec i s = .next (ofPackage s (opFault c p fcPageFault (pageAddr p (w.va / 0x1_0000)) u)))) ∧
  (∀ s dc, awake s = true →
     (cluWritable s dc = true → ∀ v : W64, exec (.cluXlatRootWrite dc v) s = .next (updClu s dc fun k => { k with
       xlatEn := natBit v.toNat 0, xlatBase := natBits v.toNat 47 12 * 4096, xlat := { k.xlat with tlb := [] } })) ∧
     (cluWritable s dc = true → (getClu s dc).xlat.inv = [] →
       exec (.cluXlatInvAll dc) s = .next (updClu s dc fun k => { k with xlat := {
         tlb := [], inv := [⟨none, none, none, invOps s dc none, invPids s dc none⟩] } }) ∧
       ∀ v : W64, ∀ va, va = natBits v.toNat 47 16 * 65536 → exec (.cluXlatInvPage dc v) s = .next (updClu s dc fun k => { k with
         xlat := { tlb := k.xlat.tlb.filter fun t => !(decide (t.va ≤ va) && decide (va < t.va + t.size))
                   inv := [⟨some va, none, none, invOps s dc (some va), invPids s dc (some va)⟩] } })) ∧
     (cluWritable s dc = true → (getClu s dc).xlat.inv ≠ [] →
       exec (.cluXlatInvAll dc) s = .next (updClu s dc fun k => { k with xlat := { k.xlat with
         inv := k.xlat.inv ++ [⟨none, none, none, [], []⟩] } })) ∧
     (∀ i is, (getClu s dc).xlat.inv = i :: is →
       (invHeld s i = true → exec (.xlatInvComplete (.cluster dc)) s = .next s) ∧
       (invHeld s i = false → ∃ t, exec (.xlatInvComplete (.cluster dc)) s = .next t ∧
         (getClu t dc).xlat.inv.map (fun j => (j.what, j.part, j.ap)) = is.map (fun j => (j.what, j.part, j.ap)))) ∧
     (cluWritable s dc = false → (∀ v, exec (.cluXlatRootWrite dc v) s = .next s) ∧ exec (.cluXlatInvAll dc) s = .next s))

/-- A write of the KV walker's registers takes effect while no core of the cluster runs and its DMA engine rests, and drops the walker's
translations; at another time it only sets IGN, and where no walker is fitted it does nothing.

A write of CLU_SPM_PWR sets the halves' power while every core of the cluster is IDLE and no window, open or held, lies in a half that
goes down: the bytes of such a half are gone, every other stays, and BUSY is set where a half changes; else only IGN is set.

Single registers: CORE_BIND takes effect while its core is IDLE and else sets BWI; STK_MEM_CFG takes CLSIZE, at most 12, while no
partition holds the stack; MEM_LOG_CTRL.CLR empties the log; the end of a scratchpad power change clears BUSY and lets waiting streams go. -/
def Obligations.ClusterRegisters : Prop :=
  (∀ s dc (v : W64), awake s = true → cluWritable s dc = true →
     (kvFitted s = true → kvwOpen s dc = true →
       exec (.kvwConfigWrite dc false v) s = .next (updClu s dc fun k => { k with kvw := { k.kvw with
         en := natBit v.toNat 0, wbase := natBits v.toNat 47 40, tlb := [] } }) ∧
       exec (.kvwConfigWrite dc true v) s = .next (updClu s dc fun k => { k with kvw := { k.kvw with
         loff := natBits v.toNat 13 0, poff := natBits v.toNat 29 16, psize := min 9216 (natBits v.toNat 45 32), tlb := [] } })) ∧
     (kvFitted s = true → kvwOpen s dc = false → ∀ b, exec (.kvwConfigWrite dc b v) s = .next (updClu s dc fun k => { k with
       kvw := { k.kvw with ign := true } })) ∧
     (kvFitted s = false → ∀ b, exec (.kvwConfigWrite dc b v) s = .next s)) ∧
  (∀ s dc (v : W64), awake s = true → cluWritable s dc = true → ∀ down, down = newlyDown (getClu s dc).spmPwr v.toNat →
     ((∀ c ∈ cluCores s dc, (getCore s c).st = .idle ∧ ∀ w, w < 4 → ∀ h ∈ down, winInHalf (getWin (getCore s c) w) h = false) →
       ∃ t, exec (.cluSpmPwrWrite dc v) s = .next t ∧ (getClu t dc).spmPwr = v.toNat % 64 ∧
         ((getClu s dc).spmPwr ≠ v.toNat % 64 → (getClu t dc).spmBusy = true) ∧ ∀ c a, lciDc c = dc →
           memByte (getCore t c).spm a = if ∃ h ∈ down, (halfRange h).1 ≤ a ∧ a < (halfRange h).2 then 0
             else memByte (getCore s c).spm a) ∧
     ((∃ c ∈ cluCores s dc, (getCore s c).st ≠ .idle ∨ ∃ w, w < 4 ∧ ∃ h ∈ down, winInHalf (getWin (getCore s c) w) h = true) →
       exec (.cluSpmPwrWrite dc v) s = .next (updClu s dc fun k => { k with spmIgn := true }))) ∧
  (∀ s, awake s = true →
     (∀ c (v : W64), lciOk c = true → (getClu s (lciDc c)).pwr.st = .on →
       ((getCore s c).st = .idle → exec (.coreBindWrite c v) s = .next (updCore s c fun k =>
         { k with bindSeq := v.toNat % 4, bindEn := natBit v.toNat 2 })) ∧
       ((getCore s c).st ≠ .idle → exec (.coreBindWrite c v) s = .next (updCore s c fun k => { k with bwi := true }))) ∧
     (∀ k (v : W64), k < 6 →
       ((getStk s k).part = none → exec (.stkMemCfgWrite k v) s = .next (updStk s k fun x => { x with clsize := min 12 (v.toNat % 16) })) ∧
       ((getStk s k).part ≠ none → exec (.stkMemCfgWrite k v) s = .next s)) ∧
     (∀ k, k < 6 → exec (.memLogCtrlClr k) s = .next (updStk s k fun x => { x with log := [], logOvf := false, unlogged := 0 })) ∧
     (∀ dc, ((getClu s dc).spmBusy = true → ∃ t, exec (.spmPowerChangeComplete dc) s = .next t ∧ (getClu t dc).spmBusy = false ∧
         (∀ n, n < 4 → getSeq t dc n = { getSeq s dc n with waitPwr := false }) ∧ t.cores = s.cores ∧ t.mem = s.mem) ∧
       ((getClu s dc).spmBusy = false → exec (.spmPowerChangeComplete dc) s = .next s)))

/-- A register write takes effect unit by unit where it covers whole units of a cluster's or die's control block or of a core's register
page, and changes no register where it covers part of one; in BAR0 it is whole aligned registers only (R281). A write of a core's page crosses the
fabric, and counts as accepted only where it is. -/
def Obligations.RegisterWrites : Prop :=
  ∀ s a bs, awake s = true →
    (∀ dc off us, paDecode s a = .clu dc off → cluWritable s dc = true → off + bs.length ≤ 0x1000 →
      coverUnits (fun _ => 8) off (bs.map some) = some us →
      exec (.registerWrite false a bs) s = .next (ofPackage s (us.foldl (fun s u => cluWriteUnit dc u.1 u.2 s) s))) ∧
    (∀ d off us, paDecode s a = .die d off → off + bs.length ≤ 0x1_0000 → coverUnits (fun _ => 8) off (bs.map some) = some us →
      exec (.registerWrite false a bs) s = .next (ofPackage s (us.foldl (fun s u => dieWriteUnit d u.1 u.2 s) s))) ∧
    (∀ c off, paDecode s a = .spm c off → 0x7000 ≤ off → off + bs.length ≤ 0x8000 → (getClu s (lciDc c)).pwr.st = .on →
      s.net.hard = [] → regionDead s (.core c) = false → ∀ u, u = (crossNow .write .leadIo (.core c) bs.length s).1 → u.cores = s.cores ∧
      (∀ us, coverUnits pageUnit off (bs.map some) = some us → exec (.registerWrite false a bs) s = .next (ofPackage s
        (crossNow .answer (.core c) .leadIo 0 (countRx (.core c) bs.length (us.foldl (fun s u => updCore s c (pageWrite u.1 u.2)) u))).1)) ∧
      (coverUnits pageUnit off (bs.map some) = none → ∃ t, exec (.registerWrite false a bs) s = .next t ∧ t.cores = s.cores ∧
        t.clusters = s.clusters ∧ t.stks = s.stks ∧ t.mem = s.mem)) ∧
    (∀ dc off, paDecode s a = .clu dc off → coverUnits (fun _ => 8) off (bs.map some) = none → exec (.registerWrite false a bs) s = .next s) ∧
    (∀ d off, paDecode s a = .die d off → coverUnits (fun _ => 8) off (bs.map some) = none → exec (.registerWrite false a bs) s = .next s) ∧
    (paDecode s a = .unmapped → exec (.registerWrite false a bs) s = .next s) ∧
    (barUp s = true → a % 8 = 0 → bs.length = 8 → exec (.registerWrite true a bs) s = .next (ofPackage s (bar0Write a (leNat bs) s))) ∧
    (a % 8 ≠ 0 ∨ bs.length ≠ 8 → exec (.registerWrite true a bs) s = .next s)

/-- A 16-byte unit written whole and aligned lands in its slot where the window of sequence numbers holds it, and is else counted in AP_DROPS; a
write of several units lands them one by one; one that is no whole aligned units is counted in HIF_DROPS; in a state that takes no packets nothing
happens.

A landed packet NEXT is taken, by the model's log entry 109 in D3hot too: its units leave the aperture, NEXT moves on, and it is examined once
the previous command has written its reply. Its checks: LEN; without a session only commands 1 to 4 in the clear, and under one an encrypted packet
whose tag passes, are accepted; what fails check 3 is INVALID. On an aperture of no partition R285 answers in place of the other checks: IDENTITY and
STATUS are accepted with whatever parameters, the rest is STATE. -/
def Obligations.UnitsLand : Prop :=
  (∀ s off bs, awake s = true →
     (hostUp s = true → off + bs.length ≤ 2 ^ 28 → off % 16 = 0 → bs.length = 16 → ∀ a x, a = off / 0x100_0000 → x = off % 0x100_0000 →
       ((x / 4096 + 4096 - (getAp s a).next % 4096) % 4096 < apWindow (getAp s a) → exec (.apertureWrite off bs) s =
         .next (updAp s a fun k => { k with units := smapSet [] k.units (x / 4096 * 256 + x % 4096 / 16) bs })) ∧
       (apWindow (getAp s a) ≤ (x / 4096 + 4096 - (getAp s a).next % 4096) % 4096 → exec (.apertureWrite off bs) s =
         .next (updAp s a fun k => { k with drops := k.drops + 1 }))) ∧
     (hostUp s = true → off + bs.length ≤ 2 ^ 28 → off % 16 = 0 → bs.length % 16 = 0 → bs ≠ [] → exec (.apertureWrite off bs) s =
       .next (ofPackage s (forEach (List.range (bs.length / 16)) (fun s i =>
         landUnit ((off + 16 * i) / 0x100_0000) ((off + 16 * i) % 0x100_0000) (bytesAt bs (16 * i) 16) s) s))) ∧
     (hostUp s = true → off + bs.length ≤ 2 ^ 28 → (off % 16 ≠ 0 ∨ bs.length % 16 ≠ 0) →
       exec (.apertureWrite off bs) s = .next { s with pcie := { s.pcie with drops := s.pcie.drops + 1 } }) ∧
     (hostUp s = false → exec (.apertureWrite off bs) s = .next s)) ∧
  ((∀ s a n, awake s = true → a < 16 → hostActs s = true → (getAp s a).en = true → apHeld s a = false → packetLanded (getAp s a) = true →
     landedLen (getAp s a) = some n → exec (.packetTake a) s = .next (ofPackage s (advanceAp a (updAp s a fun k => { k with
       units := smapKeep (fun u => u / 256 != nextSlot k) k.units
       next := (k.next + 1) % 2 ^ 32
       taken := k.taken ++ [⟨(List.range (if lenOk n then n else 1)).flatMap fun u => getUnit k (nextSlot k) u, k.next⟩] })))) ∧
   ∀ s a p op len, op = fieldAt p.bytes 0 2 → len = fieldAt p.bytes 4 2 →
     (apSession s a = none → lenOk len = false → examine a p s = pushReply a stInvalid op p.slot (fieldAt p.bytes 12 4) (invalidResult 4 1) s) ∧
     (apSession s a = none → lenOk len = true → (natBit (fieldAt p.bytes 2 2) 0 = false ∨ 3 ≤ len) → (a = 0 ∨ apPart s a ≠ none) →
       ((op = 0 ∨ 4 < op) → examine a p s = pushReply a stSession op p.slot (fieldAt p.bytes 12 4) (mkResult []) s) ∧
       (0 < op → op ≤ 4 → natBit (fieldAt p.bytes 2 2) 0 = false → ∀ ps, ps = bytesAt p.bytes 32 (16 * len - 32) →
         (∀ e, check3 s a p.bytes p.slot ps = some e →
           examine a p s = pushReply a stInvalid op p.slot (fieldAt p.bytes 12 4) (invalidResult e.1 e.2) s) ∧
         (check3 s a p.bytes p.slot ps = none → ∃ c, c.opcode = op ∧ c.seq = p.slot ∧ c.params = ps ∧ c.started = false ∧
           examine a p s = updAp s a fun k => { k with cur := some c }))) ∧
     (∀ ss u, apSession s a = some ss → lenOk len = true → 3 ≤ len → (a = 0 ∨ apPart s a ≠ none) →
       u = updAp s a (fun k => { k with pktCount := k.pktCount + 1 }) → openPacket ss a (getAp s a).pktCount p.bytes len = none →
       examine a p s = pushReply a stAuth op p.slot (fieldAt p.bytes 12 4) (mkResult [(0, 4, min 8 ((getAp s a).authRun + 1))])
         (updAp u a fun k => { k with authRun := min 8 ((getAp s a).authRun + 1) })) ∧
     (∀ ss ps u, apSession s a = some ss → lenOk len = true → 3 ≤ len → (a = 0 ∨ apPart s a ≠ none) →
       u = updAp (updAp s a fun k => { k with pktCount := k.pktCount + 1 }) a (fun k => { k with authRun := 0 }) →
       openPacket ss a (getAp s a).pktCount p.bytes len = some ps →
       (∀ e, check3 s a p.bytes p.slot ps = some e →
         examine a p s = pushReply a stInvalid op p.slot (fieldAt p.bytes 12 4) (invalidResult e.1 e.2) u) ∧
       (check3 s a p.bytes p.slot ps = none → ∃ c, c.opcode = op ∧ c.seq = p.slot ∧ c.params = ps ∧ c.enc = true ∧
         c.count = (getAp s a).pktCount ∧ c.started = false ∧ examine a p s = updAp u a fun k => { k with cur := some c })) ∧
     (apSession s a = none → a ≠ 0 → apPart s a = none → lenOk len = true → (natBit (fieldAt p.bytes 2 2) 0 = false ∨ 3 ≤ len) →
       (fieldAt p.bytes 8 4 ≠ p.slot → examine a p s = pushReply a stInvalid op p.slot (fieldAt p.bytes 12 4) (invalidResult 8 1) s) ∧
       (fieldAt p.bytes 8 4 = p.slot → op ≠ 1 → op ≠ 2 →
         examine a p s = pushReply a stState op p.slot (fieldAt p.bytes 12 4) (stateResult s none 0) s) ∧
       (fieldAt p.bytes 8 4 = p.slot → op = 1 ∨ op = 2 → ∃ c, c.opcode = op ∧ c.seq = p.slot ∧ c.stray = none ∧ c.started = false ∧
         examine a p s = updAp s a fun k => { k with cur := some c })))

/-- A record goes to an aligned ring in two posted writes, of which the second carries the phase, and without a session its RESULT is in the
clear; it counts towards an interrupt unless the aperture is masked. Replies go in order and may end a session; an event goes out under a
session, once no reply waits (log entry 109, DEDUCED), and what has been lost first (log entry 50, DEDUCED), in an EVENTS_LOST that the log keeps too;
an interrupt that is due signals the aperture's vector unless it is masked. -/
def Obligations.RecordsWrite : Prop :=
  (∀ s a kind st code seq tag r addr hdr, (apSession s a = none) → addr = (getAp s a).ringBase + (getAp s a).tail % 2 ^ (getAp s a).log2n * 64 →
    hdr = leBytes 1 (1 - (getAp s a).tail / 2 ^ (getAp s a).log2n % 2 + 2 * kind) ++ leBytes 1 st ++ leBytes 2 code ++ leBytes 4 seq ++
      leBytes 4 tag ++ leBytes 4 (apLimit (getAp s a)) → ∀ bs, bs = hdr ++ (bytesAt r 0 32 ++ List.replicate 16 0) →
    (0 < s.pcie.maxPayload → s.pcie.maxPayload % 64 = 0 → (getAp s a).ringBase % 64 = 0 →
      (writeRecord a kind st code seq tag r false s).pcie.posted = s.pcie.posted ++ [(addr + 4, bs.drop 4), (addr, bs.take 4)]) ∧
    (getAp (writeRecord a kind st code seq tag r false s) a).tail = ((getAp s a).tail + 1) % 2 ^ 32 ∧
    (getAp (writeRecord a kind st code seq tag r false s) a).unsignalled = (getAp s a).unsignalled + bit (!(getAp s a).mask)) ∧
  ∀ s a, awake s = true →
    (∀ r rs, (getAp s a).recs = r :: rs → ringSpace (getAp s a) = true → barUp s = true → exec (.replyRecordWrite a) s =
      .next (ofPackage s (advanceAp a (afterReply a r (writeRecord a 0 r.status r.code r.seq r.tag r.result (getAp s a).recClear
        (updAp s a fun k => { k with recs := rs, recClear := false })))))) ∧
    ((getAp s a).recs = [] ∨ ringSpace (getAp s a) = false → exec (.replyRecordWrite a) s = .next s) ∧
    ((getAp s a).recs ≠ [] → exec (.eventRecordWrite a) s = .next s) ∧
    (ringSpace (getAp s a) = true → (getAp s a).recs = [] → barUp s = true → apSession s a ≠ none → (getAp s a).recClear = false →
      (∀ r, r = mkResult [(0, 4, (getAp s a).evNew)] → 0 < (getAp s a).evNew → exec (.eventRecordWrite a) s = .next (ofPackage s
        (writeRecord a 1 0 0x010A (getAp s a).evSeq 0 r false (putLog 0x010A 0 ((apPart s a).getD 0xFF) r (updAp s a fun k =>
          { k with evNew := 0, evSeq := (k.evSeq + 1) % 2 ^ 32 }))))) ∧
      ((getAp s a).evNew = 0 → ∀ e es, (getAp s a).evq = e :: es → exec (.eventRecordWrite a) s = .next (ofPackage s (writeRecord a 1 0
        e.code (getAp s a).evSeq 0 e.result false (updAp s a fun k => { k with evq := es, evSeq := (k.evSeq + 1) % 2 ^ 32 }))))) ∧
    (∀ aged, (aged = false → (getAp s a).unsignalled < (getAp s a).modn) → (aged = true → (getAp s a).unsignalled = 0) →
      exec (.msixInterrupt ⟨a, aged⟩) s = .next s) ∧
    (∀ aged, 0 < (getAp s a).unsignalled → (aged = true ∨ (getAp s a).modn ≤ (getAp s a).unsignalled) → barUp s = true →
      ((getAp s a).mask = true → exec (.msixInterrupt ⟨a, aged⟩) s = .next (updAp s a fun k => { k with unsignalled := 0 })) ∧
      ((getAp s a).mask = false → natBit (msixWord s (4 * apVec (getAp s a) a + 3)).toNat 0 = false →
        ∃ t, exec (.msixInterrupt ⟨a, aged⟩) s = .next t ∧ t.pcie.signals = s.pcie.signals ++ [apVec (getAp s a) a] ∧
          (getAp t a).unsignalled = 0 ∧ t.pcie.posted = s.pcie.posted))

/-- AP_RING_HEAD moves only between head and tail: a value between them, in the arithmetic of R290, is taken; one that would move it
backwards or beyond the tail is ignored and sets HEADERR; while the ring is full, no record is written. -/
def Obligations.RingHead : Prop :=
  ∀ s a, awake s = true → barUp s = true → a < 16 →
    (∀ v, (sub32 (v % 2 ^ 32) (getAp s a).head ≤ sub32 (getAp s a).tail (getAp s a).head →
        exec (.apRingHeadWrite a v) s = .next (updAp s a fun k => { k with head := v % 2 ^ 32 })) ∧
      (sub32 (getAp s a).tail (getAp s a).head < sub32 (v % 2 ^ 32) (getAp s a).head →
        exec (.apRingHeadWrite a v) s = .next (updAp s a fun k => { k with headErr := true }))) ∧
    (2 ^ (getAp s a).log2n ≤ sub32 (getAp s a).tail (getAp s a).head →
      exec (.replyRecordWrite a) s = .next s ∧ exec (.eventRecordWrite a) s = .next s)

/-- AP_CTRL takes its fields, and its EN from 0 to 1 starts the ring afresh, with what stands unsignalled still to be signalled; ABANDON ends
the session and discards packet NEXT.

A function level reset (R305), and the fundamental reset of the PCIe link, end every session and leave every aperture disabled, with its ring's
head and NEXT at 0 and its tail where it was. Units that have landed are gone, and an aperture whose session ends loses its commands and records; one
without a session keeps them (log entry 52, DEDUCED). D3hot and D0 are modes that change nothing else. -/
def Obligations.ApertureRegisters : Prop :=
  (∀ s a, awake s = true → barUp s = true → a < 16 →
     (∀ v : W64, natBit v.toNat 48 = false → natBit v.toNat 0 = true → (getAp s a).en = false → ∃ t, exec (.apCtrlEn a v) s = .next t ∧
       (getAp t a).en = true ∧ (getAp t a).head = 0 ∧ (getAp t a).tail = 0 ∧
       (getAp t a).log2n = min 16 (max 6 (natBits v.toNat 5 1)) ∧ (getAp t a).mask = natBit v.toNat 36 ∧
       (getAp t a).recs = (getAp s a).recs ∧ (getAp t a).unsignalled = (getAp s a).unsignalled ∧ ∀ b, b ≠ a → getAp t b = getAp s b) ∧
     exec (.apCtrlAbandon a) s = .next (ofPackage s (updAp (endSession a s) a fun k => { k with
       units := smapKeep (fun u => u / 256 != nextSlot k) k.units }))) ∧
  (∀ s, awake s = true →
     (∀ i, i = Instr.functionLevelReset ∨ i = Instr.pcieFundamentalReset → ∃ t, exec i s = .next t ∧ t.dev.session = none ∧
       (∀ q, q < 6 → (getPart t q).session = none) ∧ ∀ a, a < 16 → ((getAp t a).en = false ∧ (getAp t a).units = [] ∧
         (getAp t a).head = 0 ∧ (getAp t a).next = 0 ∧ (getAp t a).log2n = 6 ∧ (getAp t a).ringBase = 0 ∧ (getAp t a).tail = (getAp s a).tail) ∧
         ((∀ q, apPart s a = some q → q < 6) → apSession s a ≠ none → (getAp t a).cur = none ∧ (getAp t a).taken = [] ∧ (getAp t a).recs = []) ∧
         (apSession s a = none → (getAp t a).cur = (getAp s a).cur ∧ (getAp t a).taken = (getAp s a).taken ∧
           (getAp t a).recs = (getAp s a).recs)) ∧
     exec .pcieD3hotEnter s = .next { s with pcie := { s.pcie with d3hot := true } } ∧
     exec .pcieD0Return s = .next { s with pcie := { s.pcie with d3hot := false } })

/-- What every command of an aperture shares: one that is not in progress there, or whose turn it is not (R291, with log entry 109), changes
nothing; a reply record bears the command's opcode, SEQ and TAG and ends it. -/
def Obligations.CommandsWait : Prop :=
  (∀ s a, awake s = true → ∀ x ∈ ([(.identity, 0x01), (.status, 0x02), (.attest, 0x03), (.kex, 0x04), (.sessionEnd, 0x10), (.logRead, 0x11),
      (.logClear, 0x12), (.telemetry, 0x13), (.fwWrite, 0x20), (.fwActivate, 0x21), (.ownerLock, 0x22), (.powerSet, 0x30),
      (.thermalSet, 0x31), (.devCommit, 0x32), (.partCreate, 0x40), (.partDestroy, 0x41), (.partConfig, 0x42), (.partCommit, 0x43),
      (.partRun, 0x44), (.partDrain, 0x45), (.partReset, 0x46), (.unitReset, 0x47), (.dmaWrite, 0x50), (.dmaRead, 0x51),
      (.xlatLoad, 0x53), (.xlatInval, 0x54), (.regRead, 0x55), (.regWrite, 0x56), (.streamStart, 0x60), (.streamCtrl, 0x61),
      (.springCtrl, 0x62)] : List ((Nat → Instr) × Nat)),
    ((getAp s a).cur = none → exec (x.1 a) s = .next s) ∧
    (∀ c, (getAp s a).cur = some c → c.opcode ≠ x.2 ∨ c.started = true ∨ apHeld s a = true ∨ myTurn s a = false →
      exec (x.1 a) s = .next s)) ∧
  ∀ s a c st r, (getAp s a).cur = some c →
    (getAp (finish a st r s) a).recs = (getAp s a).recs ++ [⟨st, c.opcode, c.seq, c.tag, r⟩] ∧ (getAp (finish a st r s) a).cur = none ∧
    (∀ b, b ≠ a → getAp (finish a st r s) b = getAp s b) ∧ (finish a st r s).mem = s.mem

/-- IDENTITY, STATUS, ATTEST, SESSION_END, LOG_READ, LOG_CLEAR and TELEMETRY: what each answers, and what it sends to the host. The RESULT of
LOG_READ is log entry 56, and VERSION and STATUS before a session log entry 67 (both DEDUCED). A block for the host goes by chunks, and its command is
answered once the last has gone; where no other aperture's transfer waits, all of it goes within the command (log entry 121, DESIGN CHOICE). -/
def Obligations.QueryCommands : Prop :=
  (∀ s a h tags d r, (d = [] → sendBlock a h tags d r s = finish a stOk r s) ∧
    ∀ c t, (getAp s a).cur = some c → Fresh c → d ≠ [] → a < 16 → apHeld s a = false → s.pcie.d3hot = false →
      (∀ b, b ≠ a → chunkWaits s b = false) → sendBlock a h tags d r s = t →
      (getAp t a).cur = none ∧ (getAp t a).recs = (getAp s a).recs ++ [⟨stOk, c.opcode, c.seq, c.tag, r⟩] ∧
      (c.enc = false → t.pcie.posted = ((List.range (ceilDiv d.length 4096)).foldl (fun s i =>
        postWrite (h + 4096 * i) ((d.drop (4096 * i)).take 4096) s) s).pcie.posted)) ∧
  ∀ s a c u, u = takeTurn a s → (∀ n, n = chainReport s → Current s a 0x01 c → exec (.identity a) s = .next (ofPackage s
      (sendBlock a (c.p 0 8) none (if c.p 0 8 ≠ 0 ∧ 0 < n ∧ n ≤ c.p 8 8 then chainBytes s else [])
        (mkResult [(0, 1, s.rev), (1, 1, s.mdies), (2, 1, s.ports), (4, 8, s.serial), (12, 4, s.dev.version),
          (16, 4, slotVersion s (inactiveSlot s)), (20, 4, n)]) u))) ∧
    (Current s a 0x02 c → exec (.status a) s = .next (answered s a stOk
      (mkResult [(0, 8, hifState s), (8, 1, s.dev.active), (9, 1, s.dev.failCode), (10, 1, unavailableMask s)]) u)) ∧
    (∀ r, r = report s (apPart s a) (bytesAt c.params 0 32) → Current s a 0x03 c →
      (r.length ≤ c.p 40 8 → exec (.attest a) s = .next (ofPackage s (sendBlock a (c.p 32 8) none r (mkResult [(0, 4, r.length)])
        (updAp u a fun k => { k with lastReport := sha384 r })))) ∧
      (c.p 40 8 < r.length → exec (.attest a) s = .next (ofPackage s (sendBlock a (c.p 32 8) none [] (mkResult [(0, 4, r.length)])
        (updAp u a fun k => { k with lastReport := k.lastReport }))))) ∧
    (Current s a 0x10 c → (a = 0 ∨ partIn a [.config, .ready] s = true) →
      exec (.sessionEnd a) s = .next (answered s a stOk (mkResult []) u)) ∧
    (∀ es, es = (logFrom (c.p 0 4) s.dev.log).take (min 4096 (max 1 (c.p 4 4))) → Current s a 0x11 c →
      exec (.logRead a) s = .next (ofPackage s (sendBlock a (c.p 8 8) (some (c.p 16 8)) (es.flatMap logBytes)
        (mkResult [(0, 8, (es.head?.map (·.seq)).getD (c.p 0 4)), (8, 4, es.length)]) u))) ∧
    (Current s a 0x12 c → natBit (c.p 0 1) 7 = false → ∃ t, exec (.logClear a) s = .next t ∧
      (natBit (c.p 0 1) 0 = true → t.dev.log = []) ∧ (natBit (c.p 0 1) 0 = false → t.dev = s.dev) ∧
      (∀ k, k < 6 → getStk t k = if natBit (c.p 0 1) (k + 1) = true then { getStk s k with log := [], logOvf := false, unlogged := 0 }
        else getStk s k) ∧ (getAp t a).cur = none) ∧
    (Current s a 0x13 c → telemetryRefs a c s = none → ∀ v bs, telemetryBlock (c.p 16 8) u = (v, bs) →
      exec (.telemetry a) s = .next (ofPackage s (sendBlock a (c.p 0 8) (some (c.p 8 8)) bs (mkResult []) v)))

/-- The policies of R315: FW_WRITE and FW_ACTIVATE are answered STATE while a partition is RUNNING or DRAINING, and REFUSED while the owner lock
is set or the supply redundancy is lost; PART_CREATE is answered STATE for a stack or aperture already assigned, and REFUSED for an unavailable
stack. -/
def Obligations.HostPolicies : Prop :=
  ∀ s a c u, u = takeTurn a s →
    (∀ i op, (i = Instr.fwWrite a ∧ op = 0x20 ∧ fwWriteRefs c s = none) ∨ (i = Instr.fwActivate a ∧ op = 0x21 ∧ c.p 0 1 = inactiveSlot s) →
      Current s a op c →
      ((∃ q, q < 6 ∧ ((getPart s q).st = .running ∨ (getPart s q).st = .draining)) →
        ∃ o, exec i s = .next (answered s a stState (stateResult s none o) u)) ∧
      (devIn [.safeTalk, .config, .ready] s = true → (∀ q, q < 6 → (getPart s q).st ≠ .running ∧ (getPart s q).st ≠ .draining) →
        (s.dev.lockBits % 2 = 1 → exec i s = .next (answered s a stRefused (mkResult [(0, 1, 1)]) u)) ∧
        (s.dev.lockBits % 2 = 0 → s.dev.supplyLost = true → exec i s = .next (answered s a stRefused (mkResult [(0, 1, 2)]) u)))) ∧
    (Current s a 0x40 c → devIn [.ready, .running, .draining] s = true → createRefs c s = none →
      ((∃ k ∈ createStacks c, (getStk s k).part ≠ none) → ∃ o, exec (.partCreate a) s = .next (answered s a stState (stateResult s none o) u)) ∧
      ((∀ k ∈ createStacks c, (getStk s k).part = none) →
        ((∃ b ∈ createAps c, (getAp s b).part ≠ none) → ∃ o, exec (.partCreate a) s = .next (answered s a stState (stateResult s none o) u)) ∧
        ((∀ b ∈ createAps c, (getAp s b).part = none) → (∃ k ∈ createStacks c, (getStk s k).unavailable = true) →
          exec (.partCreate a) s = .next (answered s a stRefused (mkResult [(0, 1, 3)]) u))))

/-- KEX sends the device's share and its signature in the clear and has a session under the derived key take effect after its reply; the
share is a free value. FW_WRITE starts for the inactive slot and FW_ACTIVATE names the slot of the next boot, in SAFE-TALK, CONFIG or READY
with no partition at work, the owner lock clear and the supply redundant. OWNER_LOCK burns what its action asks under the owner's signature. -/
def Obligations.SecurityCommands : Prop :=
  ∀ s a c u, u = takeTurn a s → (Current s a 0x04 c → kexRefs c s = none → kexLegal a s = true →
      exec (.kex a) s = .next (ofPackage s (kexRun a c u)) ∧
      ∃ t, exec (.kex a) s = .next t ∧ (getAp t a).recClear = true ∧ t.mem = s.mem ∧
        (a = 0 → t.dev.session ≠ none) ∧ (∀ q, apPart s a = some q → (getPart t q).session ≠ none)) ∧
    (devIn [.safeTalk, .config, .ready] s = true → busyParts s = 0 → lockSet s = false → s.dev.supplyLost = false →
      (Current s a 0x20 c → fwWriteRefs c s = none → exec (.fwWrite a) s = .next (updAp u a fun k => { k with
        cur := some { c with started := true, aux := inactiveSlot s } })) ∧
      (Current s a 0x21 c → c.p 0 1 = inactiveSlot s → exec (.fwActivate a) s = .next (answered s a stOk (mkResult []) (measureCmd c
        (writeBootControl (updDev u fun d => { d with active := c.p 0 1 })))))) ∧
    (Current s a 0x22 c → lockRefs c s = none →
      (c.p 0 1 = 0 → exec (.ownerLock a) s = .next (answered s a stOk (lockResult s) u)) ∧
      (∀ i, c.p 0 1 = 1 → ownerSlot s = none → emptySlot s = some i → lockSigned c s i = true → ∃ t, exec (.ownerLock a) s = .next t ∧
        smapGet [] t.dev.ownerSlots i = bytesAt (sha384 (bytesAt c.params 8 96)) 0 48 ∧ t.dev.lockBits = s.dev.lockBits) ∧
      (∀ i, (c.p 0 1 = 2 ∧ lockSet s = false ∨ c.p 0 1 = 3 ∧ lockSet s = true) → s.dev.lockBits < 128 → lockOwner c s = some i →
        ∃ t, exec (.ownerLock a) s = .next t ∧ t.dev.lockBits = s.dev.lockBits + 1) ∧
      (∀ i, c.p 0 1 = 4 → lockSet s = false → lockOwner c s = some i → ∃ t, exec (.ownerLock a) s = .next t ∧
        i ∈ t.dev.ownerReleased ∧ t.dev.lockBits = s.dev.lockBits) ∧
      ((c.p 0 1 = 2 ∧ lockSet s = true ∨ c.p 0 1 = 3 ∧ lockSet s = false) →
        exec (.ownerLock a) s = .next (answered s a stState (stateResult s none 2) u)))

/-- POWER_SET takes its settings, clamped, and answers them; THERMAL_SET those of the keep-warm loop; DEV_COMMIT puts the named ports that are
fitted in DOWN and starts, a port of a die with a faulted rail having ended its attempt there with reason 1; the device is READY once none of them
trains. -/
def Obligations.SettingsCommands : Prop :=
  ∀ s a c u, u = takeTurn a s → devIn [.config, .ready, .running, .draining] s = true →
    (Current s a 0x30 c → c.p 2 1 < 64 → orderOk (c.p 2 1) = true → exec (.powerSet a) s =
      .next (answered s a stOk (powerResult (powerSettings c s)) { u with power := powerSettings c s }) ∧
      (powerSettings c s).cap = min (variantLimit s) (max 50 (c.p 0 2)) ∧ (powerSettings c s).order = c.p 2 1 ∧
      (powerSettings c s).ramp = min 40 (max 5 (c.p 16 2))) ∧
    (Current s a 0x31 c → ∃ t, exec (.thermalSet a) s = .next t ∧ t.power.warmFloor = min 70 (max 30 (c.p 0 2)) ∧
      t.power.warmHold = min 240 (c.p 2 2) ∧ t.power.warmRate = min 20 (max 1 (c.p 4 2)) ∧ (getAp t a).cur = none ∧ t.mem = s.mem) ∧
    (Current s a 0x32 c → s.dev.st = .config → commitRefs c s = none → exec (.devCommit a) s = .next (ofPackage s (settleCommit
      (forEach ((List.range 6).filter (natBit (c.p 0 1))) (fun s k => if portFit s k then updPort s k (fun p =>
        { p with st := .down, named := true, firstDone := portUnpowered s k, width := 3, reason := if portUnpowered s k then 1 else p.reason })
          else s)
        (updDev (measureCmd c (startCmd a (c.p 0 1) u)) fun d => { d with committing := true })))))

/-- A partition's life: PART_CREATE takes free stacks and apertures; PART_CONFIG sets the translation root and the scratchpad power of every
cluster of it, and ends ABORTED at the first that takes no writes; PART_COMMIT has it READY; PART_RUN runs it and starts its link chains; PART_DRAIN
drains it, until its work is done or its time is over; each is answered STATE elsewhere. -/
def Obligations.PartitionCommands : Prop :=
  ∀ s a c q u, u = takeTurn a s → (Current s a 0x40 c → devIn [.ready, .running, .draining] s = true → createRefs c s = none →
      (∀ k ∈ createStacks c, (getStk s k).part = none ∧ (getStk s k).unavailable = false) →
      (∀ b ∈ createAps c, (getAp s b).part = none) → exec (.partCreate a) s = .next (ofPackage s (createRun a c u)) ∧
      ∃ t, exec (.partCreate a) s = .next t ∧ (getPart t (freeNumber s)).st = .config ∧
        ∀ k ∈ createStacks c, (getStk t k).part = some (freeNumber s) ∧ (getStk t k).clsize = min 12 (c.p 4 1)) ∧
    (Current s a 0x40 c → devIn [.ready, .running, .draining] s = false → createRefs c s = none →
      exec (.partCreate a) s = .next (answered s a stState (stateResult s (apPart s a) 0) u)) ∧
    (apPart s a = some q → Current s a 0x42 c → configRefs a c s = none → ((getPart s q).st ≠ .config →
        exec (.partConfig a) s = .next (answered s a stState (stateResult s (some q) 0) u)) ∧
      ((getPart s q).st = .config → s.net.hard = [] → (∀ dc ∈ partDcs s q, regionDead s (.ctrl dc) = false) →
        ((∀ dc ∈ partDcs s q, cluWritable s dc = true) → ∃ v, exec (.partConfig a) s = .next (ofPackage s v) ∧
          (getPart v q).root = natBits (c.p 8 8) 47 12 * 4096 ∧ (getPart v q).rootEn = natBit (c.p 8 8) 0 ∧ (getPart v q).st = .config ∧
          (getAp v a).cur = none ∧ (∀ dc ∈ partDcs s q, (getClu v dc).xlatBase = natBits (c.p 8 8) 47 12 * 4096 ∧
            (getClu v dc).xlatEn = natBit (c.p 8 8) 0 ∧ (getClu v dc).xlat.tlb = [] ∧
            ((∀ k ∈ cluCores s dc, (getCore s k).st = .idle ∧ ∀ w, w < 4 → ∀ h, winInHalf (getWin (getCore s k) w) h = false) →
              (getClu v dc).spmPwr = c.p 1 1 % 64)) ∧ ∀ dc, dc ∉ partDcs s q → (getClu v dc).xlatBase = (getClu s dc).xlatBase) ∧
        (∀ xs dc ys, partDcs s q = xs ++ dc :: ys → (∀ x ∈ xs, cluWritable s x = true) → cluWritable s dc = false → ∃ v,
          exec (.partConfig a) s = .next (answered s a stAborted (errorResult fcResetAbort (cluPa dc 0x200) 0) v) ∧
          (getPart v q).root = (getPart s q).root ∧ ∀ d ∈ dc :: ys, (getClu v d).xlatBase = (getClu s d).xlatBase))) ∧
    (apPart s a = some q → Current s a 0x43 c → ((getPart s q).st = .config →
        exec (.partCommit a) s = .next (answered s a stOk (mkResult []) (setPart q .ready caCommand u))) ∧
      ((getPart s q).st ≠ .config → exec (.partCommit a) s = .next (answered s a stState (stateResult s (some q) 0) u))) ∧
    (apPart s a = some q → Current s a 0x44 c → ((getPart s q).st = .ready → fwWriting s = false →
        exec (.partRun a) s = .next (ofPackage s (startLinks q false (finish a stOk (mkResult []) (setPart q .running caCommand
          (forEach (partClus u q) (fun s dc => forEach (List.range 4) (fun s n => updSeq s dc n fun x => { x with rotIdx := 0 }) s)
            (updPart u q fun p => { p with rots := [] })))))) ∧
        ((∀ k, k < 6 → (getPort s k).st ≠ .active) → ∃ t, exec (.partRun a) s = .next t ∧ (getPart t q).st = .running ∧
          (getPart t q).rots = [])) ∧
      ((getPart s q).st ≠ .ready → exec (.partRun a) s = .next (answered s a stState (stateResult s (some q) 0) u))) ∧
    (apPart s a = some q → Current s a 0x45 c → ((getPart s q).st = .running → exec (.partDrain a) s = .next (ofPackage s
        (updPart (setPart q .draining caCommand (startCmd a (min 600000 (max 1 (c.p 0 4))) u)) q fun p =>
          { p with drainMs := min 600000 (max 1 (c.p 0 4)), drainAp := some a }))) ∧
      ((getPart s q).st ≠ .running → exec (.partDrain a) s = .next (answered s a stState (stateResult s (some q) 0) u))) ∧
    (awake s = true → (getPart s q).st = .draining → (getPart s q).resetting = none →
      (liveStreams s q = [] → liveDmas s q = [] → liveSprings s q = 0 → liveChains s q = [] →
        exec (.partDrainComplete q) s = .next (ofPackage s (drained q caDrained 0 0 0 s))) ∧
      ((liveStreams s q ≠ [] ∨ liveDmas s q ≠ [] ∨ liveSprings s q ≠ 0 ∨ liveChains s q ≠ []) →
        exec (.partDrainComplete q) s = .next s) ∧
      ∃ t, exec (.partDrainExpire q) s = .next t ∧ (getPart t q).st = .ready ∧ (getPart t q).drainAp = none)

/-- Resets: PART_RESET and PART_DESTROY stop a partition's work; once no packet of it is in flight, its stacks' memory is no longer valid and its
cores lie at their reset values; it is in CONFIG, or gone, once no cluster of it has still to be switched on (log entry 65, DEDUCED), and the command
that asked for it, where it still waits, is answered. UNIT_RESET resets a core at once and a cluster through its header switch. -/
def Obligations.ResetCommands : Prop :=
  ∀ s a c q u, u = takeTurn a s → (apPart s a = some q → Current s a 0x46 c →
      partIn a [.config, .ready, .running, .draining, .salvage] s = true → s.dev.st ≠ .salvage →
      exec (.partReset a) s = .next (ofPackage s (beginReset q (.command a) (startCmd a q u))) ∧
      (getPart (beginReset q (.command a) (startCmd a q u)) q).resetting = some (.command a)) ∧
    (Current s a 0x41 c → c.p 0 1 < 6 → (getPart s (c.p 0 1)).st ≠ .none → devIn [.ready, .running, .draining, .salvage] s = true →
      exec (.partDestroy a) s = .next (ofPackage s (beginReset (c.p 0 1) (.destroy a) (startCmd a (c.p 0 1) u)))) ∧
    (awake s = true → (getPart s q).resetting ≠ none → (getPart s q).cleared = false → (∃ p ∈ s.net.pkts, pktOf s q p = true) →
      exec (.partResetDrained q) s = .next s) ∧
    (awake s = true → ∀ why, (getPart s q).resetting = some why → (getPart s q).cleared = false →
      (∀ p ∈ s.net.pkts, pktOf s q p = false) → ∃ t, exec (.partResetDrained q) s = .next t ∧
      ((∀ b, why ≠ .destroy b) → (getPart t q).session = (getPart s q).session) ∧
      (∀ x, dcPart s (locDc x) = some q → dcDie (locDc x) < 6 → memByte t.mem.bytes x = 0) ∧
      (∀ d, lciDc d ∈ partClus s q → (getCore t d).spm = [] ∧ (getCore t d).st = .idle) ∧
      ((getPart t q).cleared = true ∨ (getPart t q).resetting = none ∧
        ((∀ b, why ≠ .destroy b) → (getPart t q).st = .config) ∧ (∀ b, why = .destroy b → (getPart t q).st = .none))) ∧
    (awake s = true → ∀ why, (getPart s q).resetting = some why → (getPart s q).cleared = true →
      (switchingOn s q = true → exec (.partResetDrained q) s = .next s) ∧
      (switchingOn s q = false → ∃ t, exec (.partResetDrained q) s = .next t ∧ (getPart t q).resetting = none ∧
        ((∀ b, why ≠ .destroy b) → (getPart t q).st = .config ∧ (getPart t q).session = (getPart s q).session) ∧
        (∀ b, why = .destroy b → (getPart t q).st = .none ∧ ∀ k, k < 6 → (getStk s k).part = some q → (getStk t k).part = none) ∧
        ∀ b k, (why = .command b ∧ k.opcode = 0x46) ∨ (why = .destroy b ∧ k.opcode = 0x41) →
          (getAp s b).cur = some k → k.started = true → (getAp t b).cur = none)) ∧
    (Current s a 0x47 c → partIn a [.ready, .running, .draining] s = true → unitRefs a c s = none →
      (c.p 0 1 = 0 → exec (.unitReset a) s = .next (answered s a stOk (mkResult []) (coreReset (c.p 4 4) u))) ∧
      (c.p 0 1 = 1 → (getClu s (c.p 4 4 / 1024)).pwr.inReset = false → exec (.unitReset a) s =
        .next (ofPackage s (clusterReset (c.p 4 4 / 1024) (startCmd a (c.p 4 4 / 1024) u))))) ∧
    (∀ dc, awake s = true → ((getClu s dc).pwr.resetOff = true → exec (.clusterResetOffEnd dc) s = .next (updClu s dc fun k =>
        { k with pwr := { k.pwr with resetOff := false, due := true } })) ∧
      ((getClu s dc).pwr.resetOff = false → exec (.clusterResetOffEnd dc) s = .next s))

/-- Transfers start once their references pass, and move by chunks, in turn among the apertures: what comes in is read from the host and
verified before a byte is written, what goes out leaves in ciphertext; a failed tag is AUTH with the bytes completed, at bytes 16 to 23 of RESULT (log
entry 58, DESIGN CHOICE), and a transfer ends at its first failure. What an owner holds back keeps the transfer in progress, and it goes on once that is
answered. A broadcast is verified whole and then goes to every target. -/
def Obligations.TransferCommands : Prop :=
  ∀ s a c u, u = takeTurn a s →
    (∀ i op, (i = Instr.dmaRead a ∧ op = 0x51 ∧ dmaRefs a c s = none ∧ partIn a [.ready, .running, .draining, .salvage] s = true) ∨
        (i = Instr.xlatLoad a ∧ op = 0x53 ∧ xloadRefs a c s = none ∧ partIn a [.config, .ready, .running, .draining] s = true) ∨
        (i = Instr.dmaWrite a ∧ op = 0x50 ∧ dmaRefs a c s = none ∧ partIn a [.ready, .running, .draining, .salvage] s = true ∧
          (natBits (c.p 0 8) 50 48 = 4 → springPage u (apPart s a) (natBits (c.p 0 8) 47 0) (c.p 8 8) = none)) → Current s a op c →
      exec i s = .next (updAp u a fun k => { k with cur := some { c with started := true, aux := 0 } })) ∧
    (∀ va, Current s a 0x50 c → dmaRefs a c s = none → partIn a [.ready, .running, .draining, .salvage] s = true →
      natBits (c.p 0 8) 50 48 = 4 → springPage u (apPart s a) (natBits (c.p 0 8) 47 0) (c.p 8 8) = some va →
      exec (.dmaWrite a) s = .next (answered s a stError (errorResult fcPermission va 0) u)) ∧
    (∀ data tag v, awake s = true → (getAp s a).cur = some c → nextInTurn s.pcie.chunkTurn (chunkWaits s) = some a →
      v = { s with pcie := { s.pcie with chunkTurn := a } } →
      (∀ j, c.job = some j → ∀ w j', runJob .leadIo j v = (w, j') → (j'.over = false → exec (.dmaChunk a data tag) s =
          .next (ofPackage s (updCur a (fun k => { k with job := some j' }) w))) ∧
        (j'.over = true → ∀ x, x = updCur a (fun k => { k with job := none }) w →
          (∀ st e, j'.first = some (st, e) → exec (.dmaChunk a data tag) s = .next (answered s a (if st = .resetAbort then stAborted else stError)
            (errorResult st.fault e (c.moved + j'.done)) x)) ∧
          (j'.first = none → exec (.dmaChunk a data tag) s =
            .next (ofPackage s (if c.opcode = 0x53 then xloadEnd a c x else writeEnd a c x))))) ∧
      (∀ b, c.job = none → c.bcast = some b → exec (.dmaChunk a data tag) s = .next (ofPackage s (bcastStep a c b v))) ∧
      (∀ p, c.job = none → c.bcast = none → c.post = some p → exec (.dmaChunk a data tag) s = .next (ofPackage s (postNext a c p v))) ∧
      ∀ ss h w, c.job = none → c.bcast = none → c.post = none → apSession s a = some ss → h = (if c.opcode = 0x20 then 8 else 16) →
      w = hostAnswered (chunkLen c) data tag (readHost (c.p (h + 8) 8 + 16 * chunkNo c) 16 (readHost (c.p h 8 + c.moved) (chunkLen c) v)) →
      (c.opcode = 0x51 → exec (.dmaChunk a data tag) s = .next (ofPackage s (readChunk a ss c v))) ∧
      ∀ x ∈ ([(0x50, natBits (c.p 0 8) 47 0, natBits (c.p 0 8) 50 48, writeChunk), (0x53, c.p 0 8, 4, xloadChunk),
        (0x52, c.p 0 4, if c.p 4 1 = 0 then 4 else 3, bcastChunk),
        (0x20, c.p 0 4, 0, fwChunk)] : List (Nat × Nat × Nat × (Nat → Cmd → List Byte → State → State))), c.opcode = x.1 →
        (∀ bs, openChunk ss a c.count x.2.1 x.2.2.1 (chunkNo c) (bytesAt data 0 (chunkLen c)) tag = some bs →
          exec (.dmaChunk a data tag) s = .next (ofPackage s (x.2.2.2 a c bs w))) ∧
        (openChunk ss a c.count x.2.1 x.2.2.1 (chunkNo c) (bytesAt data 0 (chunkLen c)) tag = none → exec (.dmaChunk a data tag) s =
          .next (answered s a stAuth (mkResult [(0, 4, (getAp s a).authRun), (16, 8, if c.opcode = 0x52 then 0 else c.moved)]) w))) ∧
    (awake s = true → nextInTurn s.pcie.chunkTurn (chunkWaits s) ≠ some a → ∀ data tag, exec (.dmaChunk a data tag) s = .next s) ∧
    (∀ chunks, Current s a 0x52 c → partIn a [.ready, .running, .draining] s = true → bcastRefs a c s = none →
      exec (.bcastWrite a chunks) s = .next (ofPackage s (forEach chunks (fun s x => dmaChunk a x.1 x.2 s) (startCmd a 0 u)))) ∧
    (∀ data w b, c.p 8 8 = (c.buf ++ data).length →
      runBcast (c.p 4 1) (bcastTargets s ((apPart s a).getD 0) (c.p 4 1) (c.p 5 1))
        { left := (cutLines (c.p 0 4) (c.p 8 8)).map fun p => (p.1, bytesAt (c.buf ++ data) (p.1 - c.p 0 4) p.2) }
        (updCur a (fun k => { k with buf := c.buf ++ data, moved := c.p 8 8 }) s) = (w, b) →
      (b.wait = [] → b.left = [] → bcastChunk a c data s = bcastReply a b w) ∧
      (b.first = none → bcastReply a b w = finish a stOk (mkResult [(16, 8, b.bytes)]) w))

/-- XLAT_INVAL queues its invalidation in every unit of the partition; REG_READ answers registers and REG_WRITE writes one (log entry 54, DEDUCED);
STREAM_START binds and starts cores; STREAM_CTRL resumes, ends or aborts a stream that can be; SPRING_CTRL submits a sequence or aborts a column's,
and an address with a bit above 47 names none; what acts on a cluster that takes no access is ABORTED. Each crosses the fabric to the cluster's
control port. -/
def Obligations.ClusterCommands : Prop :=
  ∀ s a c q u, apPart s a = some q → u = takeTurn a s →
    (Current s a 0x54 c → partIn a [.ready, .running, .draining] s = true → natBits (c.p 0 8) 15 1 = 0 → natBits (c.p 0 8) 63 48 = 0 →
      exec (.xlatInval a) s = .next (ofPackage s (invalRun a c u)) ∧ ∀ dc, dc ∈ partClus s q →
        ∃ i ∈ (getClu (invalRun a c u) dc).xlat.inv, i.what = invWhat (c.p 0 8) ∧ i.ap = some a) ∧
    (∀ dc off n v, Reaches s dc → Current s a 0x55 c → partIn a [.config, .ready, .running, .draining, .salvage] s = true →
      regPlace s a (c.p 0 8) = some (dc, off) → n = min 4 (max 1 (c.p 8 4)) → off + 8 * n ≤ 0x1000 →
      v = (crossNow .readResp (.ctrl dc) .leadIo (8 * n) (crossNow .readReq .leadIo (.ctrl dc) 0 u).1).1 →
      ((getClu s dc).pwr.inReset = false → exec (.regRead a) s = .next (answered s a stOk
        (mkResult ((List.range n).map fun i => (8 * i, 8, cluRead v dc (off + 8 * i)))) v)) ∧
      ((getClu s dc).pwr.inReset = true → exec (.regRead a) s = .next (answered s a stAborted
        (errorResult fcResetAbort (c.p 0 8) 0) v))) ∧
    ∀ dc v, v = (crossNow .control .leadIo (.ctrl dc) 0 u).1 → Reaches s dc →
    (∀ off, Current s a 0x56 c → partIn a [.ready, .running, .draining] s = true → regPlace s a (c.p 0 8) = some (dc, off) →
      off ∈ regAny ∨ off ∈ regZero ∧ c.p 8 8 = 0 →
      (cluWritable s dc = true → regIgnores v dc off (c.p 8 8) = false →
        exec (.regWrite a) s = .next (answered s a stOk (mkResult []) (cluWriteUnit dc off (c.p 8 8) v))) ∧
      (cluWritable s dc = true → regIgnores v dc off (c.p 8 8) = true → ∃ o,
        exec (.regWrite a) s = .next (answered s a stState (stateResult v (some q) o) (cluWriteUnit dc off (c.p 8 8) v))) ∧
      (cluWritable s dc = false → exec (.regWrite a) s = .next (answered s a stAborted (errorResult fcResetAbort (c.p 0 8) 0) v))) ∧
    (∀ n, Current s a 0x60 c → partIn a [.running] s = true → startRefs a c s = none → dc = c.p 0 2 → n = c.p 2 1 →
      (cluWritable s dc = true → ((getSeq s dc n).st = .idle ∨ (getSeq s dc n).st = .ended ∨ (getSeq s dc n).st = .faulted) → ∀ u' x y r bs,
        bindCores n (namedCores c) v = (u', x, y) → boundCores u' dc n ≠ [] → c.p 16 8 - c.p 8 8 ≤ 48 * mib →
        streamBytes dc (cutPages (c.p 8 8) (c.p 16 8 - c.p 8 8)) u' = (r, .inr bs) → apPart r a = some q → ∀ w,
        w = seqStart dc n (c.p 8 8) (c.p 16 8) (measureStream q dc n bs r) →
        exec (.streamStart a) s = .next (answered s a stOk (mkResult [(0, 4, x), (4, 4, y)]) (if c.p 3 1 = 1 then dmaStart dc w else w))) ∧
      (cluWritable s dc = false → exec (.streamStart a) s = .next (answered s a stAborted
        (errorResult fcResetAbort (cluPa dc (0x40 * n)) 0) v))) ∧
    (∀ n, Current s a 0x61 c → partIn a [.running, .draining] s = true → dc = c.p 0 2 → n = c.p 2 1 → dc < 2048 → n ≤ 3 →
      dcOk dc = true → dcPart s dc = some q → c.p 3 1 ≤ 2 →
      (cluWritable s dc = false → exec (.streamCtrl a) s = .next (answered s a stAborted
        (errorResult fcResetAbort (cluPa dc (0x40 * n)) 0) v)) ∧
      (cluWritable s dc = true → ((getSeq s dc n).st = .trapped → exec (.streamCtrl a) s = .next (answered s a stOk (mkResult [])
          (if c.p 3 1 = 0 then resumeStream dc n v else if c.p 3 1 = 1 then seqEndTrapped dc n v else seqAbort dc n v))) ∧
        ((getSeq s dc n).st = .running → c.p 3 1 = 2 → exec (.streamCtrl a) s = .next (answered s a stOk (mkResult []) (seqAbort dc n v))) ∧
        ((getSeq s dc n).st = .running → c.p 3 1 ≠ 2 →
          exec (.streamCtrl a) s = .next (answered s a stState (stateResult v (some q) 0) v)))) ∧
    (Current s a 0x62 c → partIn a [.running, .draining] s = true → dc = c.p 0 2 → dc < 2048 → dcOk dc = true →
      dcPart s dc = some q → c.p 3 1 ≤ 1 →
      (c.p 3 1 = 0 → natBits (c.p 8 8) 63 48 ≠ 0 → exec (.springCtrl a) s = .next (answered s a stInvalid (invalidResult 40 5) u)) ∧
      (c.p 3 1 = 1 ∨ natBits (c.p 8 8) 63 48 = 0 → cluWritable s dc = false →
        exec (.springCtrl a) s = .next (answered s a stAborted (errorResult fcResetAbort (cluPa dc 0x348) 0) v)) ∧
      (cluWritable s dc = true → c.p 3 1 = 1 →
        exec (.springCtrl a) s = .next (answered s a stOk (mkResult []) (sprAbort dc (fun _ => true) v))) ∧
      (cluWritable s dc = true → c.p 3 1 = 0 → natBits (c.p 8 8) 63 48 = 0 → (getPart s q).st = .running →
        exec (.springCtrl a) s = .next (ofPackage s (springSubmit a dc q (natBits (c.p 8 8) 47 0) v))))

/-- Training goes through its steps: frame lock, equaliser, the readiness test, whose ready lanes (R334) fix the lane maps and the width (R335)
or end in DOWN with reason WIDTH, and alignment on the lanes' markers, after which the port sends HELLO in SECURING; a step that exceeds its
bound, a loss of every lane's markers and a reset of the neighbour end in DOWN. Nothing trains without the die's rails (R406). How the lanes' results
reach the device is the model's choice (log entry 112).

A lane that a 1-second window fails is no longer ready, and one of the map takes the port to RETRAIN and asks the neighbour for one in its
markers, as does a marker that asks; a retrain fixes its maps and width among the lanes that are still ready (until the next training, log entry 113,
DEDUCED) and pass their tests again, once their markers align, sends the replay buffer again and steers the time base by what the port measures
(R465), or ends in DOWN with reason WIDTH. -/
def Obligations.LinkTraining : Prop :=
  (∀ s k, awake s = true →
     ((getPort s k).st = .down → (getPort s k).named = true → portFit s k = true →
       (portUnpowered s k = false → exec (.linkTrainingStart k) s =
         .next (updPort s k fun p => { p with st := .training, step := 1, width := 3 })) ∧
       (portUnpowered s k = true → exec (.linkTrainingStart k) s = .next s)) ∧
     ((getPort s k).step = 1 → exec (.trainingFrameLock k) s = .next (updPort s k fun p => { p with step := 2 })) ∧
     ((getPort s k).step = 2 → exec (.equaliserAdaptationComplete k) s = .next (updPort s k fun p => { p with st := .testing, step := 3 })) ∧
     (∀ tx rx tm rm, (getPort s k).step = 3 → tm = readyMask tx → rm = readyMask rx →
       (∀ l, natBit tm l = true ↔ l < 52 ∧ ∃ x, testOf tx l = some x ∧ 10 ^ 11 ≤ 5760 * x.codewords ∧ 50000 * x.bits < 5760 * x.codewords ∧
         x.uncorr = 0 ∧ x.mismatches = 0) ∧
       (∀ w c, widthFor tm rm = some (w, c) → ∃ t, exec (.readinessTestComplete k tx rx) s = .next t ∧
         (getPort t k).st = .training ∧ (getPort t k).step = 4 ∧ (getPort t k).width = c ∧ lanesOf (getPort t k).txmap = (lanesOf tm).take w ∧
         lanesOf (getPort t k).rxmap = (lanesOf rm).take w ∧ w ≤ (lanesOf tm).length ∧ w ≤ (lanesOf rm).length) ∧
       ((lanesOf tm).length < 32 ∨ (lanesOf rm).length < 32 → ∃ t, exec (.readinessTestComplete k tx rx) s = .next t ∧ Down t k 2)) ∧
     (∀ marks, (getPort s k).step = 4 → (aligned (getPort s k) marks = true → ∃ t n, exec (.laneAlignmentComplete ⟨k, marks⟩) s = .next t ∧
         (getPort t k).st = .securing ∧ (getPort t k).step = 7 ∧ (getPort t k).helloOwn = helloPayload s k n ∧ n < 2 ^ 256) ∧
       (aligned (getPort s k) marks = false → exec (.laneAlignmentComplete ⟨k, marks⟩) s = .next s)) ∧
     (0 < (getPort s k).step ∨ (getPort s k).st = .retrain → ∃ t, exec (.linkTrainStepTimeout k) s = .next t ∧ Down t k 1) ∧
     ((getPort s k).st = .securing ∨ (getPort s k).st = .active ∨ (getPort s k).st = .retrain → ∀ reset, ∃ t, exec (.laneMarkerLoss ⟨k, reset⟩) s = .next t ∧
       Down t k (if reset then 8 else 7))) ∧
  (∀ s k, awake s = true →
     ((getPort s k).st = .active → ∀ corr uncorr p bad, p = windowCounts corr uncorr (getPort s k) → bad = failedLanes p → ∃ t q,
       exec (.laneErrorWindow k corr uncorr) s = .next t ∧ t = updPort s k (fun _ => q) ∧ q.winCorr = [] ∧ q.winUncorr = [] ∧
       q.corr = p.corr ∧ q.uncorr = p.uncorr ∧ (∀ l, l < 52 → natBit q.rxReady l = (natBit (getPort s k).rxReady l && !bad.contains l)) ∧
       ((∃ l ∈ bad, natBit (getPort s k).rxReady l = true ∧ natBit (getPort s k).rxmap l = true) → q.st = .retrain ∧ q.retrainReq = true) ∧
       ((∀ l ∈ bad, natBit (getPort s k).rxReady l = false ∨ natBit (getPort s k).rxmap l = false) → q.st = .active ∧
         q.retrainReq = (getPort s k).retrainReq)) ∧
     (∀ lane mark, (getPort s k).st = .active → markerOk (getPort s k) lane mark = true → natBit mark 46 = true →
       exec (.retrain ⟨k, lane, mark⟩) s = .next (updPort s k fun p => { p with st := .retrain })) ∧
     (∀ lane mark, markerOk (getPort s k) lane mark = false ∨ natBit mark 46 = false → exec (.retrain ⟨k, lane, mark⟩) s = .next s) ∧
     ((getPort s k).st = .retrain → ∀ tx rx marks tm rm, tm = stillReady (getPort s k).txReady tx → rm = stillReady (getPort s k).rxReady rx →
       (∀ w c p v, widthFor tm rm = some (w, c) → p = setLanes w c tm rm (countTests rx (getPort s k)) → mapTested p.txmap tx = true →
         mapTested p.rxmap rx = true → aligned p marks = true →
         v = replay k (linkEvent k 0 0xFF 0 0 (updPort s k fun _ => { startLanes p with st := .active, retrains := p.retrains + 1 })) →
         exec (.retrainComplete k tx ⟨rx, marks⟩) s = .next (ofPackage s (steer (pumpChains k (updPort v k (pumpPort v.dev.time k))))) ∧
         ((∀ q, q < 6 → (getChain s k q).st ≠ .running) → (getPort s k).replay = [] ∨ (getPort s k).replayRun < 15 → ∃ t,
           exec (.retrainComplete k tx ⟨rx, marks⟩) s = .next t ∧ (getPort t k).st = .active ∧ (getPort t k).width = c ∧
           lanesOf (getPort t k).txmap = (lanesOf tm).take w ∧ lanesOf (getPort t k).rxmap = (lanesOf rm).take w ∧
           (getPort t k).retrains = (getPort s k).retrains + 1 ∧ (getPort s k).replay <+: (getPort t k).replay)) ∧
       ((lanesOf tm).length < 32 ∨ (lanesOf rm).length < 32 → ∃ t, exec (.retrainComplete k tx ⟨rx, marks⟩) s = .next t ∧ Down t k 2)))

/-- Key setup: HELLO gives the neighbour's serial number, and a part that hears itself ends in DOWN with reason 4; CERT fragments join until
one is short (log entry 71, DEDUCED), and a chain that fails its check ends in DOWN with reason 3, as does a KEYX whose key or signature fails; a good
KEYX gives both directions' keys, and FINISH makes the port ACTIVE.

A message whose tag fails takes its port to DOWN with reason AUTH and is counted; so does a key-setup message out of its order (log entry 72,
DEDUCED). A command whose message does not wait, or waits behind a VC1 message of which an owner holds packets back, changes nothing. -/
def Obligations.KeySetup : Prop :=
  (∀ s k m rest data, (getPort s k).st = .securing → Waiting s k 0 mtControl m rest → openMsg (getPort s k) m = some data →
     ((parseHdr m.bytes).csub = 1 → (getPort s k).hs = 0 →
       (fieldAt data 0 8 ≠ s.serial → s.dev.chainValid = true → ∃ t, exec (.hello k) s = .next t ∧ (getPort t k).st = .securing ∧
         (getPort t k).hs = 1 ∧ (getPort t k).helloPeer = data ∧ (getPort t k).peer = fieldAt data 0 8) ∧
       (fieldAt data 0 8 = s.serial → ∃ t, exec (.hello k) s = .next t ∧ Down t k 4) ∧
       (fieldAt data 0 8 ≠ s.serial → s.dev.chainValid = false → ∃ t, exec (.hello k) s = .next t ∧ Down t k 3)) ∧
     ((parseHdr m.bytes).csub = 2 → (getPort s k).hs = 1 →
       (512 ≤ data.length → ∃ t, exec (.cert k) s = .next t ∧ (getPort t k).hs = 1 ∧ (getPort t k).certPeer = (getPort s k).certPeer ++ data) ∧
       (data.length < 512 → peerChainOk ((getPort s k).certPeer ++ data) (getPort s k).peer = true → ∃ t, exec (.cert k) s = .next t ∧
         (getPort t k).hs = 2 ∧ (getPort t k).certPeer = (getPort s k).certPeer ++ data) ∧
       (data.length < 512 → peerChainOk ((getPort s k).certPeer ++ data) (getPort s k).peer = false → ∃ t, exec (.cert k) s = .next t ∧
         Down t k 3)) ∧
     ((parseHdr m.bytes).csub = 3 → (getPort s k).hs = 2 → ∀ key, key = bytesAt data 0 96 →
       (data.length = 192 → onCurve key = true →
         ecdsaOk (chainKey (getPort s k).certPeer) (keyxDigest (getPort s k).helloPeer (getPort s k).helloOwn (getPort s k).certPeer
           (certPadded (chainBytes s)) key) (bytesAt data 96 96) = true → ∃ t, exec (.keyx k) s = .next t ∧ (getPort t k).hs = 3 ∧
         (getPort t k).keyed = true ∧ (getPort t k).keyTx ++ (getPort t k).keyRx = (if s.serial < (getPort s k).peer
           then linkKeys s (getPort s k) key
           else bytesAt (linkKeys s (getPort s k) key) 32 32 ++ bytesAt (linkKeys s (getPort s k) key) 0 32)) ∧
       (data.length ≠ 192 ∨ onCurve key = false ∨
         ecdsaOk (chainKey (getPort s k).certPeer) (keyxDigest (getPort s k).helloPeer (getPort s k).helloOwn (getPort s k).certPeer
           (certPadded (chainBytes s)) key) (bytesAt data 96 96) = false → ∃ t, exec (.keyx k) s = .next t ∧ Down t k 3)) ∧
     ((parseHdr m.bytes).csub = 4 → (getPort s k).hs = 3 →
       (data = [] → ∃ t, exec (.finish k) s = .next t ∧ (getPort t k).st = .active ∧ (getPort t k).step = 0 ∧ (getPort t k).firstDone = true) ∧
       (data ≠ [] → ∃ t, exec (.finish k) s = .next t ∧ Down t k 3))) ∧
  (∀ s k, awake s = true →
     (∀ x ∈ linkMessages, serves s k = true → (x.2.1 = 1 → (getPort s k).job = none) →
       (∀ m rest, Waiting s k x.2.1 x.2.2 m rest → openMsg (getPort s k) m = none → ∃ t, exec (x.1 k) s = .next t ∧ Down t k 3 ∧
         (getPort t k).authFail = (getPort s k).authFail + 1) ∧
       ((∀ m ∈ (getPort s k).inbox, m.vc ≠ x.2.1) → exec (x.1 k) s = .next s)) ∧
     (∀ x ∈ linkMessages, serves s k = false → exec (x.1 k) s = .next s) ∧
     (∀ x ∈ linkMessages, ∀ j, x.2.1 = 1 → (getPort s k).job = some j → (parseHdr j.hdr).type ≠ x.2.2 → exec (x.1 k) s = .next s) ∧
     (∀ x ∈ setupMessages, ∀ m rest, (getPort s k).st = .securing → Waiting s k 0 mtControl m rest → (parseHdr m.bytes).csub = x.2.1 →
       (openMsg (getPort s k) m = none → ∃ t, exec (x.1 k) s = .next t ∧ Down t k 3 ∧ (getPort t k).authFail = (getPort s k).authFail + 1) ∧
       (∀ data, openMsg (getPort s k) m = some data → (getPort s k).hs ≠ x.2.2 → ∃ t, exec (x.1 k) s = .next t ∧ Down t k 3)))

/-- The neighbour's PUT, GET and RPUT: each is answered with its status; nothing reaches a partition that is not served. The packets of a PUT go in
order, and it is answered once each has been, however long an owner holds one back (R146); a PUT that notifies raises its flag, where the fabric
carries it to its core, if every PUT since the previous notification was COMMIT. -/
def Obligations.LinkRequests : Prop :=
  (∀ s k m rest data h u, h = parseHdr m.bytes → openMsg (getPort s k) m = some data → serves s k = true → u = received k m rest data s →
    (Waiting s k 1 mtPut m rest → (getPort s k).job = none → ∀ v e, putJob k h data u = (v, e) →
      (∀ st, e = .inl st → exec (.linkPut k) s = .next (replied k s (sendAnswer k h.dpart h.spart h.mtag st (notePut k h st v)))) ∧
      ∀ j w j', e = .inr j → runJob (.link k) j v = (w, j') →
        (j'.over = false → exec (.linkPut k) s = .next (replied k s (updPort w k fun p => { p with job := some ⟨h.bytes, j'⟩ }))) ∧
        ∀ st, j'.over = true → st = (match j'.first with | some f => linkStatus f.1.fault | none => 0) → exec (.linkPut k) s =
          .next (replied k s (sendAnswer k h.dpart h.spart h.mtag st (notePut k h st (updPort w k fun p => { p with job := none }))))) ∧
    (Waiting s k 1 mtGet m rest → (getPort s k).job = none → ∀ v st bs, getBytes k h u = (v, st, bs) → exec (.linkGet k) s = .next (replied k s (sendMsg k
      { type := mtGetResp, plen := bs.length / 16, dpart := h.spart, spart := h.dpart, mtag := h.mtag, status := st } bs v))) ∧
    (Waiting s k 2 mtRput m rest →
      (partServed s h.dpart = false → exec (.linkRput k) s = .next (replied k s (sendAnswer k h.dpart h.spart h.mtag 8 u))) ∧
      (partServed s h.dpart = true → h.dspace ≠ 3 ∨ spmServed s h.dpart h.addr data.length true = false ∨ inPsp h.addr data.length = false →
        exec (.linkRput k) s = .next (replied k s (sendAnswer k h.dpart h.spart h.mtag 5 u))) ∧
      (partServed s h.dpart = true → h.dspace = 3 → spmServed s h.dpart h.addr data.length true = true → inPsp h.addr data.length = true →
        ∀ v ps, rputPackets k h data u = (v, ps) → exec (.linkRput k) s = .next (replied k s (updPort v k fun p =>
          { p with rputs := p.rputs ++ [⟨h.mtag, h.dpart, h.spart, ps, none⟩] }))))) ∧
  (∀ s k h data, partServed s h.dpart = false → putJob k h data s = (s, .inl 8) ∧ getBytes k h s = (s, 8, [])) ∧
  (∀ s k x, awake s = true → serves s k = true → (getPort s k).job = some x → (parseHdr x.hdr).type = mtPut →
    exec (.linkPut k) s = .next (ofPackage s (putStep k (parseHdr x.hdr) x.job s))) ∧
  (∀ s k h st, h.dspace = 3 → h.notify = true →
    (st = 0 → noteOf (getPort s k) h.spart (h.addr / 32768) = false → s.net.hard = [] → regionDead s (.core (h.addr / 32768)) = false →
      coreLive s (h.addr / 32768) = true → notePut k h st s = incFlag (h.addr / 32768) h.nflag ocPut (crossNow .control (.link k)
        (.core (h.addr / 32768)) 0 (updPort s k fun p =>
          { p with notes := p.notes.filter fun n => !(n.spart == h.spart && n.core == h.addr / 32768) })).1) ∧
    (st ≠ 0 ∨ noteOf (getPort s k) h.spart (h.addr / 32768) = true → (notePut k h st s).cores = s.cores))

/-- Answers to a port's own requests: the request they name is no longer outstanding, GETRESP's data go where the descriptor says, packet by
packet, and a status other than COMMIT ends the descriptor; a BARRIER is kept for its match; TIMESYNC keeps its times, its arrival that of its first
unit, and a time base more than 1 ms behind steps forward by the offset, while a smaller lag makes it count fast. -/
def Obligations.LinkAnswers : Prop :=
  (∀ s k m rest data h u, h = parseHdr m.bytes → openMsg (getPort s k) m = some data → serves s k = true → u = received k m rest data s →
    (Waiting s k 1 mtGetResp m rest → (getPort s k).job = none → ∀ r rs, takeReq (getPort s k) h.mtag true = some (r, rs) →
      ∀ v, v = updPort u k (fun p => { p with reqs := rs }) →
      (5 < r.part → exec (.getresp k) s = .next (replied k s (pumpChains k v))) ∧
      (r.part ≤ 5 → h.status ≠ 0 → exec (.getresp k) s = .next (replied k s (pumpChains k (chainError k r.part h.status v)))) ∧
      (r.part ≤ 5 → h.status = 0 → ∀ w e, localJob k r.part r.space r.addr (data.take r.len) u = (w, e) →
        (∀ code, e = .inl code → exec (.getresp k) s = .next (replied k s (getDone k h.mtag code w))) ∧
        ∀ j x j', e = .inr j → runJob (.link k) j w = (x, j') →
          (j'.over = false → exec (.getresp k) s = .next (replied k s (updPort x k fun p => { p with job := some ⟨h.bytes, j'⟩ }))) ∧
          (j'.over = true → exec (.getresp k) s = .next (replied k s (getDone k h.mtag
            (match j'.first with | some f => f.1.fault | none => 0) (updPort x k fun p => { p with job := none })))))) ∧
    (Waiting s k 0 mtAnswer m rest → ∀ r rs, takeReq (getPort s k) h.mtag false = some (r, rs) → ∀ v, v = updPort u k (fun p => { p with reqs := rs }) →
      (h.status = 0 → exec (.linkAnswer k) s = .next (replied k s (pumpChains k v))) ∧
      (r.part < 6 → h.status ≠ 0 → exec (.linkAnswer k) s = .next (replied k s (pumpChains k (chainError k r.part h.status v))))) ∧
    (Waiting s k 0 mtBarrier m rest → exec (.linkBarrier k) s = .next (replied k s (updPort u k fun p =>
      { p with barriers := p.barriers ++ [(h.addr % 65536, h.dpart)] }))) ∧
    (Waiting s k 0 mtTimesync m rest → exec (.timesync k) s = .next (replied k s (timesyncIn k m.arrived data u)) ∧
      ∀ v, v = updPort u k (fun p => { p with lastT1 := fieldAt data 0 8, lastT4 := m.arrived, haveSync := true }) →
        fieldAt data 8 8 = 0 → fieldAt data 16 8 = 0 → timesyncIn k m.arrived data u = steer v)) ∧
  (∀ s k tag code r rs, takeReq (getPort s k) tag true = some (r, rs) → ∀ v, v = updPort s k (fun p => { p with reqs := rs }) →
    getDone k tag code s = pumpChains k (if r.part < 6 ∧ code ≠ 0 then chainError k r.part code v else v)) ∧
  (∀ s, (1000000 < topOffset s → (steer s).dev.time = (s.dev.time + (topOffset s).toNat) % 2 ^ 64 ∧ (steer s).dev.fast = false) ∧
    (topOffset s ≤ 1000000 → steer s = updDev s fun d => { d with fast := decide (5 < topOffset s) })) ∧
  ∀ s k, awake s = true → (getPort s k).st = .active → exec (.timesyncSend k) s = .next (ofPackage s (sendMsg k { type := mtTimesync, plen := 2 }
    (leBytes 8 s.dev.time ++ leBytes 8 (if (getPort s k).haveSync then (getPort s k).lastT1 else 0)
      ++ leBytes 8 (if (getPort s k).haveSync then (getPort s k).lastT4 else 0) ++ leBytes 8 0) s))

/-- Flits, as their lanes deliver them: without an error left in its codewords a flit arrives as it was sent. One whose CRC fails is counted and
rejected, as a data flit is (log entry 73, DEDUCED); a data flit in sequence is taken and acknowledged, one out of sequence is rejected; set reserved
bits and what breaks the protocol take the port to DOWN with reason 6; NAK has the replay buffer sent again, with a NAK of the port's own in the first
flit alone. So does ACK when it stands still, and the sixteenth replay in a row takes the port to DOWN. -/
def Obligations.LinkFlits : Prop :=
  (∀ p flit, p.rxResid = [] → (rxLanes [] flit p).2 = bytesAt flit 0 256) ∧
  (∀ p f fs, p.replay = f :: fs → (replayPort p).nak = false ∧ (replayPort p).replay = p.replay ∧
    (replayPort p).txOut = p.txOut ++ flitAgain p f :: fs.map (flitAgain { p with nak := false })) ∧
  (∀ s k flit lanes errs r bs head n, awake s = true → rxLanes (lanes.zip errs) flit (getPort s k) = (r, bs) → head = leNat (bs.take 12) →
    n = (getPort s k).txOut.length → (linkUp (getPort s k) = true ∨ (getPort s k).st = .retrain) →
    (crc32c (bs.take 252) ≠ fieldAt bs 252 4 → ∃ t, exec (.flitReceive k flit lanes errs) s = .next t ∧ (getPort t k).rejecting = true ∧
      (getPort t k).crcErr = (getPort s k).crcErr + 1 ∧ (getPort t k).ack = (getPort s k).ack ∧ (getPort t k).inbox = (getPort s k).inbox ∧
      (getPort t k).rxFlits = (getPort s k).rxFlits ∧ (getPort t k).st = (getPort s k).st) ∧
    (crc32c (bs.take 252) = fieldAt bs 252 4 → natBits head 95 92 ≠ 0 → ∃ t, exec (.flitReceive k flit lanes errs) s = .next t ∧ Down t k 6) ∧
    (crc32c (bs.take 252) = fieldAt bs 252 4 → natBits head 95 92 = 0 → overspent (getPort s k) = false → natBit head 0 = false →
      exec (.flitReceive k flit lanes errs) s = .next (ofPackage s (answerBack k n (if natBit head 25 then
        replay k (updPort s k fun _ => takeAcks head r) else updPort s k fun _ => takeAcks head r)))) ∧
    (crc32c (bs.take 252) = fieldAt bs 252 4 → natBits head 95 92 = 0 → natBit head 0 = true →
      (natBits head 12 1 ≠ ((getPort s k).ack + 1) % 4096 → overspent (getPort s k) = false → natBit head 25 = false → ∃ t,
        exec (.flitReceive k flit lanes errs) s = .next t ∧ (getPort t k).rejecting = true ∧ (getPort t k).ack = (getPort s k).ack ∧
        (getPort t k).inbox = (getPort s k).inbox ∧ (getPort t k).crcErr = (getPort s k).crcErr) ∧
      (natBits head 12 1 = ((getPort s k).ack + 1) % 4096 → ∀ q, q = { takeAcks head r with
          ack := natBits head 12 1, rejecting := false, nak := false, rxFlits := (getPort s k).rxFlits + 1 } →
        (∀ p, takeFlit s.dev.time bs (natBits head 55 26) (List.range 15) q = some p → overspent p = false →
          exec (.flitReceive k flit lanes errs) s = .next (ofPackage s (answerBack k n (if natBit head 25 then replay k (updPort s k fun _ => p)
            else updPort s k fun _ => p))) ∧
          (natBit head 25 = false → ∃ t, exec (.flitReceive k flit lanes errs) s = .next t ∧ (getPort t k).ack = natBits head 12 1 ∧
            (getPort t k).rejecting = false ∧ (getPort t k).inbox = p.inbox ∧ (getPort t k).rxPart = p.rxPart ∧
            (getPort t k).rxFlits = (getPort s k).rxFlits + 1)) ∧
        (takeFlit s.dev.time bs (natBits head 55 26) (List.range 15) q = none → ∃ t,
          exec (.flitReceive k flit lanes errs) s = .next t ∧ Down t k 6) ∧
        (∀ p, takeFlit s.dev.time bs (natBits head 55 26) (List.range 15) q = some p → overspent p = true → ∃ t,
          exec (.flitReceive k flit lanes errs) s = .next t ∧ Down t k 6)))) ∧
  ∀ s k, awake s = true → linkUp (getPort s k) = true → (getPort s k).replay ≠ [] →
    ((getPort s k).replayRun < 15 → exec (.replayTimeout k) s = .next (updPort s k replayPort)) ∧
    (15 ≤ (getPort s k).replayRun → ∃ t, exec (.replayTimeout k) s = .next t ∧ Down t k 5)

/-- Link chains: a descriptor that waits takes WCOUNT from its flag once it has reached it; an iteration whose messages have all been answered
signals, and then the next begins, the next descriptor is read, or the chain has ended. Both cross the fabric, and one that it loses ends the descriptor
with BUS_ERROR. -/
def Obligations.LinkChains : Prop :=
  ∀ s k q d, awake s = true → (getPort s k).st = .active → (getChain s k q).cur = some d →
    ((getChain s k q).st = .waiting →
      (∀ v, v = smapGet 0 (getCore s d.wcore).flags d.wflag → d.wcount ≤ v.toNat → s.net.hard = [] → regionDead s (.core d.wcore) = false →
        exec (.linkChainFlagWait k q) s = .next (ofPackage s (pumpChains k (chainSt k q (fun c => { c with st := .running })
          (crossNow .answer (.core d.wcore) (.link k) 0 (updCore (crossNow .control (.link k) (.core d.wcore) 0 s).1 d.wcore fun x =>
            { x with flags := smapSet 0 x.flags d.wflag (v - BitVec.ofNat 16 d.wcount) })).1)))) ∧
      ((smapGet 0 (getCore s d.wcore).flags d.wflag).toNat < d.wcount → exec (.linkChainFlagWait k q) s = .next s)) ∧
    ((getChain s k q).st = .running → iterDone s k q d = false → exec (.linkChainIterationComplete k q) s = .next s) ∧
    ((getChain s k q).st = .running → iterDone s k q d = true → ∀ u b, chainSignal k q d (updPort s k fun p =>
        { p with barriers := if d.kind = 3 then p.barriers.erase (d.bid, q) else p.barriers }) = (u, b) →
      (b = false → exec (.linkChainIterationComplete k q) s = .next (ofPackage s (pumpChains k (chainError k q fcBusError u)))) ∧
      (b = true → (getChain s k q).iter + 1 < d.rep → exec (.linkChainIterationComplete k q) s =
        .next (ofPackage s (pumpChains k (chainBegin k q d ((getChain s k q).iter + 1) u)))) ∧
      (b = true → d.rep ≤ (getChain s k q).iter + 1 → d.last = true → exec (.linkChainIterationComplete k q) s =
        .next (ofPackage s (pumpChains k (chainSt k q (fun c => { c with st := .ended, cur := none }) u))) ∧
        (d.sen = false → (∀ r, r ≠ q → (getChain s k r).st ≠ .running) → ∃ t, exec (.linkChainIterationComplete k q) s = .next t ∧
          (getChain t k q).st = .ended ∧ (getChain t k q).cur = none)) ∧
      (b = true → d.rep ≤ (getChain s k q).iter + 1 → d.last = false → exec (.linkChainIterationComplete k q) s =
        .next (ofPackage s (pumpChains k (chainLoad k q d.next u)))))

/-- The cap: grants give each class its floor first, no class more than its demand, and all together no more than is available beyond the floors;
a tick estimates each class from its events, tells every region the highest point within its share, raises none by itself, and withholds the
permits of springs while memory draws more than its grant. From the compute grant it takes what links and memory draw beyond theirs, as far as those
cannot bring it back themselves (the sample's measure, log entry 120).

A change of point whose writes are acknowledged takes effect with its voltage, which has moved in steps of at most 10 mV; a write that is
not, after two retries, leaves the region's point and the setpoint reached. A measurement is voltage times current over a class's rails, and an
implausible one has 115% of the estimate govern. -/
def Obligations.PowerCap : Prop :=
  ((∀ p o demand avail g, orderOk o = true → g = grants p (classOrder o) demand avail → g.length = 3 ∧
     (∀ i, i < 3 → min (100000 * (getClass p i).floor) (demand i) ≤ g.getD i 0 ∧ g.getD i 0 ≤ demand i ∧
       g.getD i 0 ≤ max (100000 * (getClass p i).floor) (100000 * (getClass p i).ceil)) ∧
     g.getD 0 0 + g.getD 1 0 + g.getD 2 0 ≤ max avail (min (100000 * p.links.floor) (demand 0) + min (100000 * p.memory.floor) (demand 1)
       + min (100000 * p.compute.floor) (demand 2))) ∧
   ∀ s x u, awake s = true → u = holdTick (addEnergy x.unclassed (grantAll x (estimate x.unclassed s))) →
     ∃ t, exec (.capControlTick x) s = .next t ∧
     (∀ i, i < 3 → (getClass t.power i).est = classEst s i ∧ (getClass t.power i).leak = classLeak s i ∧
       (getClass t.power i).gov = governing (getClass s.power i) (classEst s i)) ∧
     (∀ p g, p = (estimate x.unclassed s).power → g = grants p (classOrder p.order) (classDemand (estimate x.unclassed s))
         (min (100000 * p.cap) (p.prevTotal + 10 * p.ramp) - 1000 * x.unclassed) →
       t.power.links.grant = g.getD 0 0 ∧ t.power.memory.grant = g.getD 1 0 ∧
       t.power.compute.grant = g.getD 2 0 - min (1000 * x.excess) ((1000 * t.power.links.gov - t.power.links.grant)
         + (1000 * t.power.memory.gov - t.power.memory.grant))) ∧
     t.power.ePackage = inc64 s.power.ePackage (t.power.links.gov + t.power.memory.gov + t.power.compute.gov + x.unclassed) ∧
     (∀ k, k < 6 → (getStk t k).energy = inc64 (getStk s k).energy (stackGov (estimate x.unclassed s) k)) ∧
     (∀ k d, k < 6 → d < s.mdies → (getMDie t k d).withheld = decide (t.power.memory.grant < 1000 * t.power.memory.gov)) ∧
     (∀ d r, d < 6 → r < 4 → (getRgn s d r).op ≤ (getRgn t d r).op ∧ (getRgn t d r).vset = (getRgn s d r).vset ∧
       (getRgn t d r).capTicks = (getRgn s d r).capTicks - 1) ∧
     (∀ i y, i < 24 → y = getRgn t (rgnDie i) (rgnNo i) → y.ocs ≠ 2 → y.failed = false →
       (y.change.map (·.point)).getD y.op = allowedPoint (getRgn u (rgnDie i) (rgnNo i)) (rgnPoint u i) ∧
       ∀ k, k < 7 → rgnAt u i k ≤ rgnShare u i → rgnPoint u i ≤ k) ∧
     t.act = [] ∧ t.cores = s.cores ∧ t.mem = s.mem) ∧
  ((∀ s i c x vs failed, awake s = true → x = getRgn s (rgnDie i) (rgnNo i) → x.change = some c → vs = voltSteps x.vset c.vset →
     ((∀ j, failed = some j → vs.length ≤ j) → ∃ t, exec (.opVoltageSettled i failed) s = .next t ∧
       (getRgn t (rgnDie i) (rgnNo i)).op = c.point ∧ (getRgn t (rgnDie i) (rgnNo i)).vset = c.vset ∧
       (getRgn t (rgnDie i) (rgnNo i)).change = none ∧ t.side.avsOut = s.side.avsOut ++ vs.map fun v => (rgnDie i, rgnNo i, v)) ∧
     (∀ j v, failed = some j → vs[j]? = some v → ∃ t, exec (.opVoltageSettled i failed) s = .next t ∧
       (getRgn t (rgnDie i) (rgnNo i)).op = x.op ∧ (getRgn t (rgnDie i) (rgnNo i)).vset = (x.vset :: vs).getD j 0 ∧
       (getRgn t (rgnDie i) (rgnNo i)).change = none ∧
       t.side.avsOut = s.side.avsOut ++ (vs.take j ++ [v, v, v]).map fun w => (rgnDie i, rgnNo i, w))) ∧
   (∀ s i failed, (getRgn s (rgnDie i) (rgnNo i)).change = none → exec (.opVoltageSettled i failed) s = .next s) ∧
   (∀ a b, (a ≠ b → (voltSteps a b).getLast? = some b) ∧
     ∀ i v w, (a :: voltSteps a b)[i]? = some v → (a :: voltSteps a b)[i + 1]? = some w → w ≤ v + 10 ∧ v ≤ w + 10) ∧
   ∀ s ls ms cs rails, awake s = true → rails = ls ++ ms ++ cs → ∃ t, exec (.powerMeasurementWindow ls ms cs) s = .next t ∧ t.cores = s.cores ∧ t.mem = s.mem ∧
     ∀ i rs, i < 3 → rs = (classRails s i).map (readingOf rails) → rs ≠ [] → (getClass t.power i).meas = classMeas rs ∧
       (getClass t.power i).est = (getClass s.power i).est ∧
       (getClass t.power i).gov = governing (getClass t.power i) (getClass t.power i).est ∧
       (rs.any (readingBad s) = true ∨ 2 * classMeas rs < (getClass s.power i).leak →
         (getClass t.power i).implausible = true ∧ (getClass t.power i).gov = (getClass s.power i).est * 115 / 100))

/-- Current, droop and ageing: the second sample in a row above 1,150 A stops a region, the fiftieth above 1,050 A stretches its clock and holds
its point, a change still pending turned back, and 500 in a row at most 1,000 A end that; droop stretches a cluster's clock by levels. -/
def Obligations.PowerCurrents : Prop :=
  (∀ s i amps x, awake s = true → i < 24 → x = getRgn s (rgnDie i) (rgnNo i) → x.ocs ≠ 2 → x.failed = false →
    (11500 < amps → 1 ≤ x.trip → ∃ t, exec (.currentMonitorSample i amps) s = .next t ∧ (getRgn t (rgnDie i) (rgnNo i)).ocs = 2 ∧
      (getRgn t (rgnDie i) (rgnNo i)).change = none ∧ Dark t (rgnDcs s (rgnDie i) (rgnNo i))) ∧
    (10500 < amps → amps ≤ 11500 ∨ x.trip = 0 → x.hi = 49 → ∃ t y, exec (.currentMonitorSample i amps) s = .next t ∧
      y = getRgn t (rgnDie i) (rgnNo i) ∧ y.ocs = 1 ∧ y.capOp = x.op ∧ y.capTicks = 100000 ∧ y.ocEvt = x.ocEvt + 1 ∧ t.clusters = s.clusters ∧
      (x.op ≤ 6 → (x.topLost = true → 1 ≤ x.op) → (y.change.map (·.point)).getD y.op = x.op)) ∧
    (10500 < amps → amps ≤ 11500 ∨ x.trip = 0 → x.hi ≠ 49 → ∃ t, exec (.currentMonitorSample i amps) s = .next t ∧
      (getRgn t (rgnDie i) (rgnNo i)).ocs = x.ocs ∧ (getRgn t (rgnDie i) (rgnNo i)).op = x.op ∧ t.clusters = s.clusters) ∧
    (amps ≤ 10000 → x.ocs = 1 → ∃ t, exec (.currentMonitorSample i amps) s = .next t ∧ t.clusters = s.clusters ∧
      (getRgn t (rgnDie i) (rgnNo i)).ocs = if 500 ≤ x.lo + 1 then 0 else 1) ∧
    (amps ≤ 10500 → x.ocs = 0 → ∃ t, exec (.currentMonitorSample i amps) s = .next t ∧ t.clusters = s.clusters ∧
      (getRgn t (rgnDie i) (rgnNo i)).ocs = 0 ∧ (getRgn t (rgnDie i) (rgnNo i)).amps = amps ∧ (getRgn t (rgnDie i) (rgnNo i)).op = x.op)) ∧
  (∀ s dc m, awake s = true → dcOk dc = true → (getClu s dc).pwr.st = .on →
    (50 ≤ m → m < 80 → (getClu s dc).pwr.droop = 0 → exec (.droopDetect dc m) s = .next (droopTo dc 1 s)) ∧
    (80 ≤ m → (getClu s dc).pwr.droop < 2 → exec (.droopDetect dc m) s = .next (droopTo dc 2 s)) ∧
    (m < 50 → exec (.droopDetect dc m) s = .next s) ∧
    (0 < (getClu s dc).pwr.droop → exec (.droopRecover dc) s = .next (droopTo dc ((getClu s dc).pwr.droop - 1) s)) ∧
    ((getClu s dc).pwr.droop = 0 → exec (.droopRecover dc) s = .next s)) ∧
  ∀ s i, awake s = true → i < 24 → ((getRgn s (rgnDie i) (rgnNo i)).slack = true → exec (.ageingSlackLow i) s = .next s) ∧
    ((getRgn s (rgnDie i) (rgnNo i)).slack = false → ∃ t, exec (.ageingSlackLow i) s = .next t ∧
      (getRgn t (rgnDie i) (rgnNo i)).slack = true ∧ (getRgn t (rgnDie i) (rgnNo i)).op = (getRgn s (rgnDie i) (rgnNo i)).op ∧ t.cores = s.cores)

/-- Turn-on and turn-off: a due cluster starts where fewer than four of its region turn on, waits once while the region is loaded, and closes a
stage only where the current allows, else the region's other clusters stretch; after the fourth its clock starts in the state of a cluster
reset. The stretch ends once no turn-on of the region is under way or held. -/
def Obligations.ClusterSwitching : Prop :=
  ∀ s dc r, awake s = true → r = getRgn s (dcDie dc) (dcRgn s dc) →
    ((getClu s dc).pwr.st = .turningOn → (getClu s dc).pwr.stages < 4 →
      (r.amps + 240 ≤ 10000 → exec (.clusterTurnOnStage dc) s =
        .next (updPwr s dc fun p => { p with stages := p.stages + 1, stageHeld := false })) ∧
      (10000 < r.amps + 240 → exec (.clusterTurnOnStage dc) s = .next (updRgn (updPwr s dc fun p => { p with stageHeld := true })
        (dcDie dc) (dcRgn s dc) fun x => { x with turnOnStretch := min 3 (x.turnOnStretch + 1) }))) ∧
    ((getClu s dc).pwr.st = .turningOn → 4 ≤ (getClu s dc).pwr.stages → ∃ t, exec (.clusterTurnOnStage dc) s = .next t ∧
      (getClu t dc).pwr.st = .on ∧ (getClu t dc).pwr.inReset = false ∧ (getClu t dc).xlat = {} ∧
      (∀ n, n < 4 → (getSeq t dc n).st = .idle ∧ (getSeq t dc n).start = (getSeq s dc n).start ∧ (getSeq t dc n).issued = (getSeq s dc n).issued) ∧
      ∀ d, d ≠ dc → getClu t d = getClu s d) ∧
    ((getClu s dc).pwr.st = .off → (getClu s dc).pwr.due = true → (getClu s dc).pwr.turningOff = false → cluPowered s dc = true → r.ocs ≠ 2 →
      ((turningOn s (dcDie dc) (dcRgn s dc)).length < 4 → 8500 < r.amps → (getClu s dc).pwr.doubled = false →
        exec (.clusterTurnOnStage dc) s = .next (updPwr s dc fun p => { p with waitLoad := true })) ∧
      ((turningOn s (dcDie dc) (dcRgn s dc)).length < 4 → r.amps ≤ 8500 ∨ (getClu s dc).pwr.doubled = true → r.amps + 240 ≤ 10000 →
        exec (.clusterTurnOnStage dc) s =
          .next (updPwr s dc fun p => { p with st := .turningOn, stages := 1, due := false, waitLoad := false, stageHeld := false })) ∧
      ((turningOn s (dcDie dc) (dcRgn s dc)).length < 4 → (getClu s dc).pwr.doubled = true → 10000 < r.amps + 240 →
        exec (.clusterTurnOnStage dc) s = .next (updRgn (updPwr s dc fun p => { p with stageHeld := true })
          (dcDie dc) (dcRgn s dc) fun x => { x with turnOnStretch := min 3 (x.turnOnStretch + 1) })) ∧
      (4 ≤ (turningOn s (dcDie dc) (dcRgn s dc)).length → exec (.clusterTurnOnStage dc) s = .next s)) ∧
    ((getClu s dc).pwr.waitLoad = true → exec (.turnOnWaitExpire dc) s = .next (updPwr s dc fun p => { p with waitLoad := false, doubled := true })) ∧
    (∀ i, (turnOnPending s (rgnDie i) (rgnNo i) = false → exec (.turnOnStretchRelease i) s =
        .next (updRgn s (rgnDie i) (rgnNo i) fun x => { x with turnOnStretch := 0 })) ∧
      (turnOnPending s (rgnDie i) (rgnNo i) = true → exec (.turnOnStretchRelease i) s = .next s)) ∧
    ((getClu s dc).pwr.turningOff = true → exec (.clusterTurnOffStage dc) s = .next (updPwr s dc fun p =>
      { p with stages := p.stages - 1, turningOff := p.stages - 1 != 0, resetOff := p.stages - 1 == 0 && p.inReset }))

/-- A regulator fault, once for each rail, and none where a rail is absent or down (log entry 87, DEDUCED): the rail is written to 0 V, and what it
feeds stops: a region's or a stack's clusters, the ports of an I/O die, or with VIO rail 0 the device, which is frozen (log entry 59, DEDUCED). In
SAFE-TALK only VIO rail 0 is up; in a boot cut short any rail's fault ends it in SAFE-TALK with code 3. -/
def Obligations.RegulatorFaults : Prop :=
  ∀ s rail, awake s = true →
    (railExists s rail = false ∨ rail ∈ s.dev.failedRails ∨ (s.dev.st = .safeTalk ∧ rail ≠ .vio 0) →
      exec (.regulatorFault rail) s = .next s) ∧
    (railExists s rail = true → rail ∉ s.dev.failedRails → s.dev.st = .boot ∨ s.dev.st = .selftest → ∃ t,
      exec (.regulatorFault rail) s = .next t ∧ rail ∈ t.dev.failedRails ∧ t.dev.noFast = true ∧ t.dev.st = .safeTalk ∧ t.dev.failCode = 3 ∧
      ∀ d r, d < 6 → r < 4 → (getRgn t d r).vset = 0) ∧
    (railExists s rail = true → rail ∉ s.dev.failedRails → s.dev.st ≠ .boot → s.dev.st ≠ .selftest → s.dev.st ≠ .safeTalk ∨ rail = .vio 0 →
      ∃ t, exec (.regulatorFault rail) s = .next t ∧
      rail ∈ t.dev.failedRails ∧ t.dev.noFast = true ∧
      t.side.avsOut = s.side.avsOut ++ [((railSelects rail).1, ((railSelects rail).2.head?).getD 0, 0)] ∧
      (∀ d r, rail = .vcore d r → (getRgn t d r).failed = true ∧ (getRgn t d r).vset = 0 ∧ Dark t (rgnDcs s d r)) ∧
      (∀ k, rail = .vtarn k ∨ rail = .vmem k ∨ rail = .vpp k → (getStk t k).memFailed = true ∧ Dark t (dieDcs k)) ∧
      (rail = .vio 0 → t.dev.frozen = true) ∧
      (∀ d, rail = .vio (d + 1) ∨ (∃ n, rail = .serdes d n) → ∀ p, p = 2 * d ∨ p = 2 * d + 1 → portUnpowered t p = true ∧
        ((getPort s p).st ≠ .disabled → Down t p 1) ∧ ((getPort s p).st = .disabled → (getPort t p).st = .disabled)))

/-- Sensors: a trusted layer's reading is its accepted value, an invalid sensor is distrusted at once and keeps its accepted value until the next
check (log entry 92, DEDUCED); three failed checks in a row distrust a sensor and a thousand passes trust it again; a site's factor rises at once to
what its layers call for, and falls by one level at most; 100 ms of one layer at the limit stop its clusters; a compute reading of 115 °C trips the
package, which is held, ends a boot in progress, stops the partitions and takes the device to SALVAGE. -/
def Obligations.ThermalSensors : Prop :=
  (∀ s k xs, awake s = true → k < 6 → ∃ t, exec (.sensorRead k xs) s = .next t ∧
    (sampleTrips xs = false → t.cores = s.cores ∧ t.mem = s.mem ∧ t.side.thermTrip = s.side.thermTrip) ∧
    (sampleTrips xs = true → t.side.thermTrip = true) ∧
    ∀ i j, i < 48 → j < s.mdies + 2 →
      (layerReading xs i j = none → getLayer t k i j = getLayer s k i j) ∧
      (layerReading xs i j = some none → (getLayer t k i j).distrusted = true ∧ (getLayer t k i j).valid = false) ∧
      (∀ v, layerReading xs i j = some (some v) → (getLayer t k i j).reading = v ∧
        ((getLayer s k i j).distrusted = false → (getLayer t k i j).accepted = v) ∧
        ((getLayer s k i j).distrusted = true → (getLayer t k i j).accepted = (getLayer s k i j).accepted))) ∧
  (∀ s k i j, ((getLayer s k i j).distrusted = false → 2 ≤ (getLayer s k i j).fails → (getLayer (checked k i j false s) k i j).distrusted = true) ∧
    ((getLayer s k i j).distrusted = false → (getLayer s k i j).fails < 2 → (getLayer (checked k i j false s) k i j).distrusted = false) ∧
    ((getLayer s k i j).distrusted = true → 999 ≤ (getLayer s k i j).passes → (getLayer (checked k i j true s) k i j).distrusted = false) ∧
    ((getLayer s k i j).distrusted = true → (getLayer (checked k i j false s) k i j).distrusted = true)) ∧
  (∀ s k i heat above, awake s = true → k < 6 → i < 48 → ∃ t, exec (.plausibilityCheck k i heat above) s = .next t ∧
    (t.side.thermTrip = s.side.thermTrip → t.cores = s.cores ∧ t.mem = s.mem) ∧
    ((getLayer t k i 0).distrusted = true → tripAt ≤ (getLayer t k i 0).accepted → t.side.thermTrip = true) ∧
    (∀ n, n = (layerList s).foldl (fun m j => max m (callLevel j (getLayer t k i j).accepted)) 0 →
      ((getSite s k i).level < n → (getSite t k i).level = n) ∧
      (n ≤ (getSite s k i).level → (getSite t k i).level = (getSite s k i).level ∨ (getSite t k i).level + 1 = (getSite s k i).level)) ∧
    ∀ h, h ≠ i → (getSite t k h).level = (getSite s k h).level ∧ (getSite t k h).layers = (getSite s k h).layers) ∧
  (∀ s k i, awake s = true → k < 6 → i < 48 →
    ((∃ e ∈ (getSite s k i).hot, 100 ≤ e.2) → ∃ t, exec (.overtempStop k i) s = .next t ∧ (getSite t k i).hot = [] ∧
      Dark t (siteDcs s k i)) ∧
    ((∀ e ∈ (getSite s k i).hot, e.2 < 100) → exec (.overtempStop k i) s = .next s)) ∧
  ∀ s, awake s = true → (s.side.thermTrip = true → exec .thermalTrip s = .next s) ∧
    (s.side.thermTrip = false → ∃ t, exec .thermalTrip s = .next t ∧ t.side.thermTrip = true ∧ t.dev.noFast = true ∧
      t.dev.bootStep = 0 ∧ t.dev.st = (if s.dev.st = .safeTalk then .safeTalk else .salvage) ∧
      ∀ q, q < 6 → (getPart t q).st = .none ∨ (getPart t q).st = .salvage)

/-- The tray's SMBus commands, which the device takes on VAUX once its boot has started, also while a reset is held (log entry 94, DEDUCED), under
its own address, with its command's code and a right packet error code or none; nothing else answers. The mask silences a bit of the status where it is
set (log entry 94). A window of θ, whose mean is of the checks' accepted values (log entry 114, DEDUCED), counts only where its power was high and
steady and the coolant plausible throughout; the sixth in a row at 115% of the boot baseline marks a stack degraded. The keep-warm target falls once the
hold is over. -/
def Obligations.ThermalSideband : Prop :=
  (∀ s code w, smbTakes s code w = true ↔ (s.side.vaux = true ∧ s.side.smbUp = true ∧ w.addr = 0x4C + s.side.smbAddr % 4 ∧ w.code = code ∧
    ∀ p, w.pec = some p → p = smbPec [2 * w.addr, w.code, w.word.toNat % 256, w.word.toNat / 256])) ∧
  (∀ s w, (smbTakes s 0x40 w = true → ∃ t, exec (.inletTemperatureWrite w) s = .next t ∧ t.side.inlet = some w.word.toInt ∧ t.side.inletAge = 0 ∧
      t.side.outlet = s.side.outlet ∧ t.side.flow = s.side.flow ∧ t.cores = s.cores ∧ t.mem = s.mem) ∧
    (smbTakes s 0x41 w = true → ∃ t, exec (.outletTemperatureWrite w) s = .next t ∧ t.side.outlet = some w.word.toInt ∧ t.side.outletAge = 0 ∧
      t.side.inlet = s.side.inlet ∧ t.side.flow = s.side.flow ∧ t.cores = s.cores ∧ t.mem = s.mem) ∧
    (smbTakes s 0x42 w = true → ∃ t, exec (.flowWrite w) s = .next t ∧ t.side.flow = some w.word.toNat ∧ t.side.flowAge = 0 ∧
      t.side.inlet = s.side.inlet ∧ t.side.outlet = s.side.outlet ∧ t.cores = s.cores ∧ t.mem = s.mem) ∧
    (smbTakes s 0x43 w = true → exec (.supplyRedundancyWrite w) s = .next (updDev s fun d => { d with supplyLost := natBit w.word.toNat 0 })) ∧
    (smbTakes s 0x31 w = true → (natBit w.word.toNat 1 = true →
        exec (.alertDriftClear w) s = .next { s with side := { s.side with drift := false } }) ∧
      (natBit w.word.toNat 1 = false → exec (.alertDriftClear w) s = .next s)) ∧
    (smbTakes s 0x32 w = true → exec (.alertMaskWrite w) s =
      .next { s with side := { s.side with alertMask := w.word.toNat % 64 } }) ∧
    ∀ i code, (i, code) ∈ ([(.inletTemperatureWrite w, 0x40), (.outletTemperatureWrite w, 0x41), (.flowWrite w, 0x42),
      (.supplyRedundancyWrite w, 0x43), (.alertDriftClear w, 0x31), (.alertMaskWrite w, 0x32)] : List (Instr × Nat)) →
      smbTakes s code w = false → exec i s = .next s) ∧
  (∀ s, (smbAnswers s = true → exec .alertStatusRead s = .next { s with side := { s.side with smbusOut := s.side.smbusOut ++ [statusWord s] } }) ∧
    (smbAnswers s = false → exec .alertStatusRead s = .next s) ∧ statusWord s % 2 ^ 16 = alertStatus s ∧
    (alertLine s = true ↔ ∃ i, i < 6 ∧ natBit (alertStatus s) i = true ∧ natBit s.side.alertMask i = false)) ∧
  (∀ s k x theta, awake s = true → k < 6 → x = getStk s k → theta = thetaOfMean x.winTemp x.winChecks (s.side.inlet.getD 0) (winMean x) →
    exec (.thetaWindow k false) s = .next s ∧
    (winValid s x = false → exec (.thetaWindow k true) s = .next (updStk s k (winClear s.side.coolBad))) ∧
    (winValid s x = true → x.winBad = false ∧ s.side.coolBad = false ∧ 1000 ≤ x.winLow ∧ ∃ t, exec (.thetaWindow k true) s = .next t ∧
      (getStk t k).thetaRun = min theta 0xFFFF ∧ (getStk t k).winTicks = 0 ∧
      (getStk t k).degraded = (if x.degraded = false ∧ 115 * x.thetaBoot ≤ 100 * theta ∧ 5 ≤ x.degWin then true
        else if x.degraded = true ∧ 100 * theta < 110 * x.thetaBoot ∧ 5 ≤ x.resWin then false else x.degraded) ∧ t.cores = s.cores ∧
      ∀ h, h ≠ k → getStk t h = getStk s h)) ∧
  ∀ s k, awake s = true → (getStk s k).keepWarm = true → (getStk s k).holdOver = false → ∃ t, exec (.keepWarmHoldExpire k) s = .next t ∧
    (getStk t k).holdOver = true ∧ (getStk t k).fallMs = 0 ∧ ∀ h, h ≠ k → getStk t h = getStk s h

/-- Power-good and PKG_RST_N: their rise and release boot the device, which ends in CONFIG or, with the rails of every region at 0 V, in
SAFE-TALK; a boot is one command (log entry 95, DEDUCED). Their fall and assertion hold a package reset, one assertion while the input is low already
being none. PKG_RST_N's state at the rise of PWRGD_IN, and the watchdog in a boot, are log entry 96 (DEDUCED): the watchdog and Meridian's own request
reset and boot the device, or end a boot in SAFE-TALK. Without VAUX, only what is fused and flashed stands. -/
def Obligations.PinCommands : Prop :=
  (∀ s i x, x.cut = none →
    (i = Instr.pwrgdInRise x ∧ s.side.vaux = true ∧ s.side.pwrgd = false) ∨
    (i = Instr.pkgRstNRelease x ∧ s.side.pkgRstLow = true ∧ s.side.pwrgd = true ∧ s.dev.held = true) ∨
    (i = Instr.watchdogExpire x ∧ s.side.vaux = true ∧ s.dev.held = false ∧ s.dev.st ≠ .boot ∧ s.dev.st ≠ .selftest) ∨
    (i = Instr.meridianResetRequest x ∧ s.dev.resetDue = true ∧ s.dev.held = false) →
    ∃ t, exec i s = .next t ∧ t.dev.held = false ∧ t.dev.bootNo = s.dev.bootNo + 1 ∧
      ((t.dev.st = .config ∧ t.dev.failCode = 0 ∧ t.dev.reachedConfig = true) ∨ (t.dev.st = .safeTalk ∧ t.dev.failCode ≠ 0 ∧
        t.dev.reachedConfig = false ∧ ∀ d r, d < 6 → r < 4 → (getRgn t d r).vset = 0))) ∧
  (∀ s x, (s.side.vaux = true → s.dev.held = false → s.dev.st = .boot ∨ s.dev.st = .selftest → ∃ t, exec (.watchdogExpire x) s = .next t ∧
      t.dev.st = .safeTalk ∧ t.dev.failCode = 7) ∧
    (s.side.pwrgd = true → exec .pwrgdInFall s = .next (ofPackage s (packageReset { s with side := { s.side with pwrgd := false } }))) ∧
    (s.side.vaux = true → s.side.pwrgd = true → s.side.pkgRstLow = false → exec .pkgRstNAssert s =
      .next (ofPackage s (packageReset { s with side := { s.side with pkgRstLow := true } }))) ∧
    (s.side.vaux = true → s.side.pwrgd = true → s.side.pkgRstLow = true → exec .pkgRstNAssert s = .next s) ∧
    (s.side.pkgRstLow = true → s.side.pwrgd = false ∨ s.dev.held = false → exec (.pkgRstNRelease x) s =
      .next { s with side := { s.side with pkgRstLow := false } }) ∧
    (s.side.vaux = true → ∃ t, exec .vauxLoss s = .next t ∧ t.side.vaux = false ∧ t.side.thermTrip = false ∧ t.cores = [] ∧ t.stks = [] ∧
      t.mem = {} ∧ t.dev.held = true ∧ t.dev.flash = s.dev.flash ∧ t.dev.lockBits = s.dev.lockBits) ∧
    (s.side.vaux = false → ∃ t, exec .vauxApply s = .next t ∧ t.side.vaux = true ∧ t.side.pwrgd = false ∧ t.cores = [] ∧ t.stks = [] ∧
      t.dev.held = true ∧ t.dev.flash = s.dev.flash)) ∧
  ∀ s, awake s = true → (fwWriting s = true ∨ s.dev.persistQ = [] ∧ s.dev.logCopies = [] → exec .persistentLogAppend s = .next s) ∧
    (∀ e es, fwWriting s = false → s.dev.persistQ = e :: es → (∃ t, exec .persistentLogAppend s = .next t ∧ t.dev.persistQ = es ∧
        t.dev.persistLost = 0) ∧
      (s.dev.persistLost = 0 → exec .persistentLogAppend s = .next (ofPackage s (plogAppend e (updDev s fun d => { d with persistQ := es })))))

/-- What a package reset leaves: every core, cluster, partition, aperture, link and byte of memory at its reset value, what the boot reads
from flash forgotten and FL_RST_N pulsed once (R458), and the counters held on VAUX, the flash, the fuses and the energy counters as they were. -/
def Obligations.PackageReset : Prop :=
  ∀ s t, packageReset s = t →
    (t.cores = [] ∧ t.clusters = [] ∧ t.parts = [] ∧ t.aps = [] ∧ t.links = [] ∧ t.mem = {} ∧ t.dev.held = true ∧ t.dev.log = [] ∧
      t.dev.session = none ∧ t.side.thermTrip = false ∧ t.side.drift = false) ∧
    (t.dev.flash = s.dev.flash ∧ t.dev.ownerSlots = s.dev.ownerSlots ∧ t.dev.lockBits = s.dev.lockBits ∧
      t.dev.ownerReleased = s.dev.ownerReleased ∧ t.dev.rollback = s.dev.rollback ∧ t.dev.fuseCols = s.dev.fuseCols ∧
      t.dev.fuseCores = s.dev.fuseCores ∧ t.dev.repair = [] ∧ t.dev.wear = [] ∧ t.dev.settings = {} ∧ t.dev.plogUsed = 0 ∧
      t.side.flResets = s.side.flResets + 1 ∧ t.stuck = s.stuck ∧ t.stuckMem = s.stuckMem ∧
      t.serial = s.serial ∧ t.power.ePackage = s.power.ePackage) ∧
    (smapWf ({} : Stack) s.stks = true → ∀ k, (getStk t k).ceTarn = (getStk s k).ceTarn ∧ (getStk t k).ueTarn = (getStk s k).ueTarn ∧
      (getStk t k).ceSpm = (getStk s k).ceSpm ∧ (getStk t k).ueSpm = (getStk s k).ueSpm ∧ (getStk t k).log = (getStk s k).log ∧
      (getStk t k).energy = (getStk s k).energy ∧ (getStk t k).scrubEn = (getStk s k).scrubEn ∧ (getStk t k).part = none ∧
      (smapWf ({} : MDie) (getStk s k).mdie = true → ∀ d, (getMDie t k d).ce = (getMDie s k d).ce ∧ (getMDie t k d).ue = (getMDie s k d).ue))

end
end

