-- ==== Sys2Proof/Laws/Store.lean ====
section
/-! SUPPORT. What sparse tables and byte memories do: reading after a write, what a write leaves alone, and the canonical form kept. -/

namespace Sys2Proof.Machine

/-! ### Reading after writing -/

@[simp] theorem smapGet_nil {α : Type} (d : α) (k : Nat) : smapGet d [] k = d := rfl

theorem smapGet_erase {α : Type} (d : α) (m : SMap α) (k j : Nat) :
    smapGet d (smapErase m k) j = if j = k then d else smapGet d m j := by
  induction m with
  | nil => simp [smapErase]
  | cons e m ih =>
    obtain ⟨k', v⟩ := e
    by_cases h : k = k'
    · subst h; by_cases hj : j = k <;> simp_all [smapErase, smapGet]
    · by_cases hj : j = k'
      · subst hj; simp [smapErase, smapGet, h, Ne.symm h]
      · simp [smapErase, smapGet, h, hj, ih]

theorem smapGet_insert {α : Type} (d : α) (m : SMap α) (k j : Nat) (v : α) :
    smapGet d (smapInsert m k v) j = if j = k then v else smapGet d m j := by
  induction m with
  | nil => simp [smapInsert, smapGet]
  | cons e m ih =>
    obtain ⟨k', w⟩ := e
    by_cases h : k < k'
    · simp [smapInsert, h, smapGet]
    · by_cases h2 : k = k'
      · subst h2; by_cases hj : j = k <;> simp [smapInsert, smapGet, hj]
      · by_cases hj : j = k'
        · subst hj; simp [smapInsert, smapGet, h, h2, Ne.symm h2]
        · simp [smapInsert, smapGet, h, h2, hj, ih]

/-- A table read after a write of one key. -/
theorem smapGet_set {α : Type} [DecidableEq α] (d : α) (m : SMap α) (k j : Nat) (v : α) :
    smapGet d (smapSet d m k v) j = if j = k then v else smapGet d m j := by
  by_cases h : v = d
  · simp [smapSet, h, smapGet_erase]
  · simp [smapSet, h, smapGet_insert]

@[simp] theorem smapGet_set_same {α : Type} [DecidableEq α] (d : α) (m : SMap α) (k : Nat) (v : α) :
    smapGet d (smapSet d m k v) k = v := by simp [smapGet_set]

theorem smapGet_set_ne {α : Type} [DecidableEq α] (d : α) (m : SMap α) (k j : Nat) (v : α) (h : j ≠ k) :
    smapGet d (smapSet d m k v) j = smapGet d m j := by simp [smapGet_set, h]

theorem smapGet_upd {α : Type} [DecidableEq α] (d : α) (m : SMap α) (k j : Nat) (f : α → α) :
    smapGet d (smapUpd d m k f) j = if j = k then f (smapGet d m k) else smapGet d m j := smapGet_set ..

@[simp] theorem smapGet_upd_same {α : Type} [DecidableEq α] (d : α) (m : SMap α) (k : Nat) (f : α → α) :
    smapGet d (smapUpd d m k f) k = f (smapGet d m k) := by simp [smapGet_upd]

theorem smapGet_upd_ne {α : Type} [DecidableEq α] (d : α) (m : SMap α) (k j : Nat) (f : α → α) (h : j ≠ k) :
    smapGet d (smapUpd d m k f) j = smapGet d m j := by simp [smapGet_upd, h]

/-! ### The canonical form -/

theorem smapSorted_weaken {α : Type} {l : Nat} {m : SMap α} (h : smapSorted (some l) m = true) : smapSorted none m = true := by
  cases m with
  | nil => rfl
  | cons e m => simp [smapSorted] at h ⊢; exact h.2

theorem smapSorted_le {α : Type} {l l' : Nat} {m : SMap α} (hl : l' ≤ l) (h : smapSorted (some l) m = true) :
    smapSorted (some l') m = true := by
  cases m with
  | nil => rfl
  | cons e m => simp [smapSorted] at h ⊢; exact ⟨by omega, h.2⟩

theorem smapSorted_filter {α : Type} (p : Nat × α → Bool) : ∀ (lo : Option Nat) (m : SMap α),
    smapSorted lo m = true → smapSorted lo (m.filter p) = true
  | _, [], _ => rfl
  | lo, (k, v) :: m, h => by
    have h' := h
    simp only [smapSorted, Bool.and_eq_true] at h
    by_cases hp : p (k, v) = true
    · simp only [List.filter_cons_of_pos hp, smapSorted, Bool.and_eq_true]
      exact ⟨h.1, smapSorted_filter p _ m h.2⟩
    · simp only [List.filter_cons_of_neg hp]
      refine smapSorted_filter p lo m ?_
      cases lo with
      | none => exact smapSorted_weaken h.2
      | some l => exact smapSorted_le (by simpa using Nat.le_of_lt (by simpa using h.1)) h.2

theorem smapErase_eq {α : Type} (m : SMap α) (k : Nat) : smapErase m k = m.filter fun e => !decide (k = e.1) := by
  induction m with
  | nil => rfl
  | cons e m ih =>
    obtain ⟨k', v⟩ := e
    by_cases h : k = k'
    · subst h; simp [smapErase, ih]
    · simp [smapErase, h, ih]

theorem smapSorted_insert {α : Type} (k : Nat) (v : α) : ∀ (lo : Option Nat) (m : SMap α),
    (∀ l, lo = some l → l < k) → smapSorted lo m = true → smapSorted lo (smapInsert m k v) = true
  | lo, [], hk, _ => by
    cases lo with
    | none => rfl
    | some l => simpa [smapInsert, smapSorted] using hk l rfl
  | lo, (k', v') :: m, hk, h => by
    simp only [smapSorted, Bool.and_eq_true] at h
    by_cases h1 : k < k'
    · simp only [smapInsert, h1, if_true, smapSorted, Bool.and_eq_true]
      refine ⟨?_, by simp, h.2⟩
      cases lo with
      | none => rfl
      | some l => simpa using hk l rfl
    · by_cases h2 : k = k'
      · subst h2
        simp only [smapInsert, h1, if_false, if_true, smapSorted, Bool.and_eq_true]
        exact h
      · simp only [smapInsert, h1, h2, if_false, smapSorted, Bool.and_eq_true]
        exact ⟨h.1, smapSorted_insert k v _ m (by intro l e; cases e; omega) h.2⟩

theorem smapWf_insert {α : Type} [DecidableEq α] {d : α} {m : SMap α} (h : smapWf d m = true) (k : Nat) {v : α} (hv : v ≠ d) :
    smapWf d (smapInsert m k v) = true := by
  simp only [smapWf, Bool.and_eq_true] at h ⊢
  refine ⟨smapSorted_insert k v none m (by simp) h.1, ?_⟩
  have h2 := h.2
  clear h
  induction m with
  | nil => simpa [smapInsert] using hv
  | cons e m ih =>
    obtain ⟨k', w⟩ := e
    simp only [List.all_cons, Bool.and_eq_true] at h2
    by_cases h1 : k < k'
    · simpa [smapInsert, h1, hv] using h2
    · by_cases h3 : k = k'
      · subst h3
        simp only [smapInsert, Nat.lt_irrefl, if_false, if_true, List.all_cons, Bool.and_eq_true]
        exact ⟨by simpa using hv, h2.2⟩
      · simp only [smapInsert, h1, h3, if_false, List.all_cons, Bool.and_eq_true]
        exact ⟨h2.1, ih h2.2⟩

theorem smapWf_filter {α : Type} [DecidableEq α] {d : α} {m : SMap α} (p : Nat × α → Bool) (h : smapWf d m = true) :
    smapWf d (m.filter p) = true := by
  simp only [smapWf, Bool.and_eq_true, List.all_eq_true] at h ⊢
  exact ⟨smapSorted_filter p none m h.1, fun e he => h.2 e (List.mem_filter.1 he).1⟩

/-- Writing one key keeps a table canonical. -/
theorem smapWf_set {α : Type} [DecidableEq α] {d : α} {m : SMap α} (h : smapWf d m = true) (k : Nat) (v : α) :
    smapWf d (smapSet d m k v) = true := by
  by_cases hv : v = d
  · simp only [smapSet, hv, if_true, smapErase_eq]; exact smapWf_filter _ h
  · simp only [smapSet, hv, if_false]; exact smapWf_insert h k hv

theorem smapWf_upd {α : Type} [DecidableEq α] {d : α} {m : SMap α} (h : smapWf d m = true) (k : Nat) (f : α → α) :
    smapWf d (smapUpd d m k f) = true := smapWf_set h k _

/-! ### Byte memories -/

/-- A byte read after one byte was written. -/
theorem memByte_put (m : List Host.Cell) (a x : Nat) (b : Byte) : memByte (memPut m a b) x = if x = a then b else memByte m x :=
  smapGet_set ..

/-- Bytes written are the bytes read, and every other byte is left alone. -/
theorem memByte_puts (m : List Host.Cell) (bs : List Byte) (a x : Nat) :
    memByte (memPuts m a bs) x = if a ≤ x ∧ x < a + bs.length then bs.getD (x - a) 0 else memByte m x := by
  induction bs generalizing m a with
  | nil => simp only [memPuts, List.length_nil]; rw [if_neg (by omega)]
  | cons b bs ih =>
    simp only [memPuts, ih, memByte_put, List.length_cons]
    by_cases h : x = a
    · subst h
      rw [if_neg (by omega), if_pos rfl, if_pos (by omega)]; simp
    · by_cases h2 : a + 1 ≤ x ∧ x < a + 1 + bs.length
      · rw [if_pos h2, if_pos (by omega), show x - a = (x - (a + 1)) + 1 by omega]; simp
      · rw [if_neg h2, if_neg h, if_neg (by omega)]

/-- Masked bytes written: a byte whose mask is clear, and every byte outside, is left alone. -/
theorem memByte_mask (m : List Host.Cell) (bs : List (Option Byte)) (a x : Nat) :
    memByte (memMask m a bs) x =
      if a ≤ x ∧ x < a + bs.length then (bs.getD (x - a) none).getD (memByte m x) else memByte m x := by
  induction bs generalizing m a with
  | nil => simp only [memMask, List.length_nil]; rw [if_neg (by omega)]
  | cons b bs ih =>
    have key : ∀ m', memByte m' x = (if x = a then b.getD (memByte m x) else memByte m x) →
        memByte (memMask m' (a + 1) bs) x =
          if a ≤ x ∧ x < a + (b :: bs).length then ((b :: bs).getD (x - a) none).getD (memByte m x) else memByte m x := by
      intro m' hm
      rw [ih, hm, List.length_cons]
      by_cases h : x = a
      · subst h; rw [if_neg (by omega), if_pos rfl, if_pos (by omega)]; simp
      · by_cases h2 : a + 1 ≤ x ∧ x < a + 1 + bs.length
        · rw [if_pos h2, if_neg h, if_pos (by omega), show x - a = (x - (a + 1)) + 1 by omega]; simp
        · rw [if_neg h2, if_neg h, if_neg (by omega)]
    cases b with
    | none => exact key m (by simp)
    | some b => exact key _ (by simp [memByte_put])

theorem memByte_clear (m : List Host.Cell) (lo hi x : Nat) :
    memByte (memClear m lo hi) x = if lo ≤ x ∧ x < hi then 0 else memByte m x := by
  induction m with
  | nil => simp [memClear, memByte]
  | cons e m ih =>
    obtain ⟨k, v⟩ := e
    simp only [memByte, memClear] at ih ⊢
    by_cases hk : lo ≤ k ∧ k < hi
    · rw [List.filter_cons_of_neg (by simp [hk]), ih]
      by_cases hx : x = k
      · subst hx; simp [hk]
      · simp [smapGet, hx]
    · rw [List.filter_cons_of_pos (by simp; omega)]
      by_cases hx : x = k
      · subst hx; simp only [smapGet, if_true]; rw [if_neg hk]
      · simp only [smapGet, hx, if_false]; exact ih

theorem memPut_wf {m : List Host.Cell} (h : smapWf 0 m = true) (a : Nat) (b : Byte) : smapWf 0 (memPut m a b) = true := smapWf_set h a b

theorem memPuts_wf {m : List Host.Cell} (h : smapWf 0 m = true) (bs : List Byte) (a : Nat) : smapWf 0 (memPuts m a bs) = true := by
  induction bs generalizing m a with
  | nil => exact h
  | cons b bs ih => exact ih (memPut_wf h a b) (a + 1)

theorem memMask_wf {m : List Host.Cell} (h : smapWf 0 m = true) (bs : List (Option Byte)) (a : Nat) : smapWf 0 (memMask m a bs) = true := by
  induction bs generalizing m a with
  | nil => exact h
  | cons b bs ih =>
    cases b with
    | none => exact ih h (a + 1)
    | some b => exact ih (memPut_wf h a b) (a + 1)

theorem memClear_wf {m : List Host.Cell} (h : smapWf 0 m = true) (lo hi : Nat) : smapWf 0 (memClear m lo hi) = true := smapWf_filter _ h

/-! ### Sets of numbers -/

theorem mem_setIns (xs : List Nat) (k x : Nat) : x ∈ setIns xs k ↔ x = k ∨ x ∈ xs := by
  induction xs with
  | nil => simp [setIns]
  | cons y ys ih =>
    by_cases h : k < y
    · simp [setIns, h]
    · by_cases h2 : k = y
      · subst h2; simp [setIns]
      · simp only [setIns, h, h2, if_false, List.mem_cons, ih]; exact or_left_comm

theorem mem_setDel (xs : List Nat) (k x : Nat) : x ∈ setDel xs k ↔ x ∈ xs ∧ x ≠ k := by simp [setDel]

end Sys2Proof.Machine
end

