-- ==== Sys2Proof/Laws/State.lean ====
section
/-! SUPPORT. One lemma per field of the state per update, and what each table reads after each update. -/

namespace Sys2Proof.Machine

variable (s : State)

/-! ### The fields after an update -/

@[simp] theorem updCore_pending (c : Nat) (f : Core → Core) : (updCore s c f).pending = s.pending := rfl
@[simp] theorem updCore_mdies (c : Nat) (f : Core → Core) : (updCore s c f).mdies = s.mdies := rfl
@[simp] theorem updCore_ports (c : Nat) (f : Core → Core) : (updCore s c f).ports = s.ports := rfl
@[simp] theorem updCore_serial (c : Nat) (f : Core → Core) : (updCore s c f).serial = s.serial := rfl
@[simp] theorem updCore_rev (c : Nat) (f : Core → Core) : (updCore s c f).rev = s.rev := rfl
theorem updCore_cores (c : Nat) (f : Core → Core) : (updCore s c f).cores = smapUpd {} s.cores c f := rfl
@[simp] theorem updCore_clusters (c : Nat) (f : Core → Core) : (updCore s c f).clusters = s.clusters := rfl
@[simp] theorem updCore_stks (c : Nat) (f : Core → Core) : (updCore s c f).stks = s.stks := rfl
@[simp] theorem updCore_mem (c : Nat) (f : Core → Core) : (updCore s c f).mem = s.mem := rfl
@[simp] theorem updCore_net (c : Nat) (f : Core → Core) : (updCore s c f).net = s.net := rfl
@[simp] theorem updCore_xlead (c : Nat) (f : Core → Core) : (updCore s c f).xlead = s.xlead := rfl
@[simp] theorem updCore_xport (c : Nat) (f : Core → Core) : (updCore s c f).xport = s.xport := rfl
@[simp] theorem updCore_walks (c : Nat) (f : Core → Core) : (updCore s c f).walks = s.walks := rfl
@[simp] theorem updCore_nextWalk (c : Nat) (f : Core → Core) : (updCore s c f).nextWalk = s.nextWalk := rfl
@[simp] theorem updCore_parts (c : Nat) (f : Core → Core) : (updCore s c f).parts = s.parts := rfl
@[simp] theorem updCore_aps (c : Nat) (f : Core → Core) : (updCore s c f).aps = s.aps := rfl
@[simp] theorem updCore_pcie (c : Nat) (f : Core → Core) : (updCore s c f).pcie = s.pcie := rfl
@[simp] theorem updCore_links (c : Nat) (f : Core → Core) : (updCore s c f).links = s.links := rfl
@[simp] theorem updCore_dev (c : Nat) (f : Core → Core) : (updCore s c f).dev = s.dev := rfl
@[simp] theorem updCore_power (c : Nat) (f : Core → Core) : (updCore s c f).power = s.power := rfl
@[simp] theorem updCore_side (c : Nat) (f : Core → Core) : (updCore s c f).side = s.side := rfl
@[simp] theorem updCore_bars (c : Nat) (f : Core → Core) : (updCore s c f).bars = s.bars := rfl
@[simp] theorem updCore_nextBar (c : Nat) (f : Core → Core) : (updCore s c f).nextBar = s.nextBar := rfl
@[simp] theorem updCore_act (c : Nat) (f : Core → Core) : (updCore s c f).act = s.act := rfl
@[simp] theorem updCore_actMs (c : Nat) (f : Core → Core) : (updCore s c f).actMs = s.actMs := rfl
@[simp] theorem updCore_stuck (c : Nat) (f : Core → Core) : (updCore s c f).stuck = s.stuck := rfl
@[simp] theorem updCore_stuckMem (c : Nat) (f : Core → Core) : (updCore s c f).stuckMem = s.stuckMem := rfl
@[simp] theorem updCore_free (c : Nat) (f : Core → Core) : (updCore s c f).free = s.free := rfl
@[simp] theorem updCore_blocked (c : Nat) (f : Core → Core) : (updCore s c f).blocked = s.blocked := rfl

@[simp] theorem updClu_pending (c : Nat) (f : Cluster → Cluster) : (updClu s c f).pending = s.pending := rfl
@[simp] theorem updClu_mdies (c : Nat) (f : Cluster → Cluster) : (updClu s c f).mdies = s.mdies := rfl
@[simp] theorem updClu_ports (c : Nat) (f : Cluster → Cluster) : (updClu s c f).ports = s.ports := rfl
@[simp] theorem updClu_serial (c : Nat) (f : Cluster → Cluster) : (updClu s c f).serial = s.serial := rfl
@[simp] theorem updClu_rev (c : Nat) (f : Cluster → Cluster) : (updClu s c f).rev = s.rev := rfl
@[simp] theorem updClu_cores (c : Nat) (f : Cluster → Cluster) : (updClu s c f).cores = s.cores := rfl
theorem updClu_clusters (c : Nat) (f : Cluster → Cluster) : (updClu s c f).clusters = smapUpd {} s.clusters c f := rfl
@[simp] theorem updClu_stks (c : Nat) (f : Cluster → Cluster) : (updClu s c f).stks = s.stks := rfl
@[simp] theorem updClu_mem (c : Nat) (f : Cluster → Cluster) : (updClu s c f).mem = s.mem := rfl
@[simp] theorem updClu_net (c : Nat) (f : Cluster → Cluster) : (updClu s c f).net = s.net := rfl
@[simp] theorem updClu_xlead (c : Nat) (f : Cluster → Cluster) : (updClu s c f).xlead = s.xlead := rfl
@[simp] theorem updClu_xport (c : Nat) (f : Cluster → Cluster) : (updClu s c f).xport = s.xport := rfl
@[simp] theorem updClu_walks (c : Nat) (f : Cluster → Cluster) : (updClu s c f).walks = s.walks := rfl
@[simp] theorem updClu_nextWalk (c : Nat) (f : Cluster → Cluster) : (updClu s c f).nextWalk = s.nextWalk := rfl
@[simp] theorem updClu_parts (c : Nat) (f : Cluster → Cluster) : (updClu s c f).parts = s.parts := rfl
@[simp] theorem updClu_aps (c : Nat) (f : Cluster → Cluster) : (updClu s c f).aps = s.aps := rfl
@[simp] theorem updClu_pcie (c : Nat) (f : Cluster → Cluster) : (updClu s c f).pcie = s.pcie := rfl
@[simp] theorem updClu_links (c : Nat) (f : Cluster → Cluster) : (updClu s c f).links = s.links := rfl
@[simp] theorem updClu_dev (c : Nat) (f : Cluster → Cluster) : (updClu s c f).dev = s.dev := rfl
@[simp] theorem updClu_power (c : Nat) (f : Cluster → Cluster) : (updClu s c f).power = s.power := rfl
@[simp] theorem updClu_side (c : Nat) (f : Cluster → Cluster) : (updClu s c f).side = s.side := rfl
@[simp] theorem updClu_bars (c : Nat) (f : Cluster → Cluster) : (updClu s c f).bars = s.bars := rfl
@[simp] theorem updClu_nextBar (c : Nat) (f : Cluster → Cluster) : (updClu s c f).nextBar = s.nextBar := rfl
@[simp] theorem updClu_act (c : Nat) (f : Cluster → Cluster) : (updClu s c f).act = s.act := rfl
@[simp] theorem updClu_actMs (c : Nat) (f : Cluster → Cluster) : (updClu s c f).actMs = s.actMs := rfl
@[simp] theorem updClu_stuck (c : Nat) (f : Cluster → Cluster) : (updClu s c f).stuck = s.stuck := rfl
@[simp] theorem updClu_stuckMem (c : Nat) (f : Cluster → Cluster) : (updClu s c f).stuckMem = s.stuckMem := rfl
@[simp] theorem updClu_free (c : Nat) (f : Cluster → Cluster) : (updClu s c f).free = s.free := rfl
@[simp] theorem updClu_blocked (c : Nat) (f : Cluster → Cluster) : (updClu s c f).blocked = s.blocked := rfl

@[simp] theorem updStk_pending (c : Nat) (f : Stack → Stack) : (updStk s c f).pending = s.pending := rfl
@[simp] theorem updStk_mdies (c : Nat) (f : Stack → Stack) : (updStk s c f).mdies = s.mdies := rfl
@[simp] theorem updStk_ports (c : Nat) (f : Stack → Stack) : (updStk s c f).ports = s.ports := rfl
@[simp] theorem updStk_serial (c : Nat) (f : Stack → Stack) : (updStk s c f).serial = s.serial := rfl
@[simp] theorem updStk_rev (c : Nat) (f : Stack → Stack) : (updStk s c f).rev = s.rev := rfl
@[simp] theorem updStk_cores (c : Nat) (f : Stack → Stack) : (updStk s c f).cores = s.cores := rfl
@[simp] theorem updStk_clusters (c : Nat) (f : Stack → Stack) : (updStk s c f).clusters = s.clusters := rfl
theorem updStk_stks (c : Nat) (f : Stack → Stack) : (updStk s c f).stks = smapUpd {} s.stks c f := rfl
@[simp] theorem updStk_mem (c : Nat) (f : Stack → Stack) : (updStk s c f).mem = s.mem := rfl
@[simp] theorem updStk_net (c : Nat) (f : Stack → Stack) : (updStk s c f).net = s.net := rfl
@[simp] theorem updStk_xlead (c : Nat) (f : Stack → Stack) : (updStk s c f).xlead = s.xlead := rfl
@[simp] theorem updStk_xport (c : Nat) (f : Stack → Stack) : (updStk s c f).xport = s.xport := rfl
@[simp] theorem updStk_walks (c : Nat) (f : Stack → Stack) : (updStk s c f).walks = s.walks := rfl
@[simp] theorem updStk_nextWalk (c : Nat) (f : Stack → Stack) : (updStk s c f).nextWalk = s.nextWalk := rfl
@[simp] theorem updStk_parts (c : Nat) (f : Stack → Stack) : (updStk s c f).parts = s.parts := rfl
@[simp] theorem updStk_aps (c : Nat) (f : Stack → Stack) : (updStk s c f).aps = s.aps := rfl
@[simp] theorem updStk_pcie (c : Nat) (f : Stack → Stack) : (updStk s c f).pcie = s.pcie := rfl
@[simp] theorem updStk_links (c : Nat) (f : Stack → Stack) : (updStk s c f).links = s.links := rfl
@[simp] theorem updStk_dev (c : Nat) (f : Stack → Stack) : (updStk s c f).dev = s.dev := rfl
@[simp] theorem updStk_power (c : Nat) (f : Stack → Stack) : (updStk s c f).power = s.power := rfl
@[simp] theorem updStk_side (c : Nat) (f : Stack → Stack) : (updStk s c f).side = s.side := rfl
@[simp] theorem updStk_bars (c : Nat) (f : Stack → Stack) : (updStk s c f).bars = s.bars := rfl
@[simp] theorem updStk_nextBar (c : Nat) (f : Stack → Stack) : (updStk s c f).nextBar = s.nextBar := rfl
@[simp] theorem updStk_act (c : Nat) (f : Stack → Stack) : (updStk s c f).act = s.act := rfl
@[simp] theorem updStk_actMs (c : Nat) (f : Stack → Stack) : (updStk s c f).actMs = s.actMs := rfl
@[simp] theorem updStk_stuck (c : Nat) (f : Stack → Stack) : (updStk s c f).stuck = s.stuck := rfl
@[simp] theorem updStk_stuckMem (c : Nat) (f : Stack → Stack) : (updStk s c f).stuckMem = s.stuckMem := rfl
@[simp] theorem updStk_free (c : Nat) (f : Stack → Stack) : (updStk s c f).free = s.free := rfl
@[simp] theorem updStk_blocked (c : Nat) (f : Stack → Stack) : (updStk s c f).blocked = s.blocked := rfl

@[simp] theorem updPart_pending (c : Nat) (f : Part → Part) : (updPart s c f).pending = s.pending := rfl
@[simp] theorem updPart_mdies (c : Nat) (f : Part → Part) : (updPart s c f).mdies = s.mdies := rfl
@[simp] theorem updPart_ports (c : Nat) (f : Part → Part) : (updPart s c f).ports = s.ports := rfl
@[simp] theorem updPart_serial (c : Nat) (f : Part → Part) : (updPart s c f).serial = s.serial := rfl
@[simp] theorem updPart_rev (c : Nat) (f : Part → Part) : (updPart s c f).rev = s.rev := rfl
@[simp] theorem updPart_cores (c : Nat) (f : Part → Part) : (updPart s c f).cores = s.cores := rfl
@[simp] theorem updPart_clusters (c : Nat) (f : Part → Part) : (updPart s c f).clusters = s.clusters := rfl
@[simp] theorem updPart_stks (c : Nat) (f : Part → Part) : (updPart s c f).stks = s.stks := rfl
@[simp] theorem updPart_mem (c : Nat) (f : Part → Part) : (updPart s c f).mem = s.mem := rfl
@[simp] theorem updPart_net (c : Nat) (f : Part → Part) : (updPart s c f).net = s.net := rfl
@[simp] theorem updPart_xlead (c : Nat) (f : Part → Part) : (updPart s c f).xlead = s.xlead := rfl
@[simp] theorem updPart_xport (c : Nat) (f : Part → Part) : (updPart s c f).xport = s.xport := rfl
@[simp] theorem updPart_walks (c : Nat) (f : Part → Part) : (updPart s c f).walks = s.walks := rfl
@[simp] theorem updPart_nextWalk (c : Nat) (f : Part → Part) : (updPart s c f).nextWalk = s.nextWalk := rfl
theorem updPart_parts (c : Nat) (f : Part → Part) : (updPart s c f).parts = smapUpd {} s.parts c f := rfl
@[simp] theorem updPart_aps (c : Nat) (f : Part → Part) : (updPart s c f).aps = s.aps := rfl
@[simp] theorem updPart_pcie (c : Nat) (f : Part → Part) : (updPart s c f).pcie = s.pcie := rfl
@[simp] theorem updPart_links (c : Nat) (f : Part → Part) : (updPart s c f).links = s.links := rfl
@[simp] theorem updPart_dev (c : Nat) (f : Part → Part) : (updPart s c f).dev = s.dev := rfl
@[simp] theorem updPart_power (c : Nat) (f : Part → Part) : (updPart s c f).power = s.power := rfl
@[simp] theorem updPart_side (c : Nat) (f : Part → Part) : (updPart s c f).side = s.side := rfl
@[simp] theorem updPart_bars (c : Nat) (f : Part → Part) : (updPart s c f).bars = s.bars := rfl
@[simp] theorem updPart_nextBar (c : Nat) (f : Part → Part) : (updPart s c f).nextBar = s.nextBar := rfl
@[simp] theorem updPart_act (c : Nat) (f : Part → Part) : (updPart s c f).act = s.act := rfl
@[simp] theorem updPart_actMs (c : Nat) (f : Part → Part) : (updPart s c f).actMs = s.actMs := rfl
@[simp] theorem updPart_stuck (c : Nat) (f : Part → Part) : (updPart s c f).stuck = s.stuck := rfl
@[simp] theorem updPart_stuckMem (c : Nat) (f : Part → Part) : (updPart s c f).stuckMem = s.stuckMem := rfl
@[simp] theorem updPart_free (c : Nat) (f : Part → Part) : (updPart s c f).free = s.free := rfl
@[simp] theorem updPart_blocked (c : Nat) (f : Part → Part) : (updPart s c f).blocked = s.blocked := rfl

@[simp] theorem updAp_pending (c : Nat) (f : Aperture → Aperture) : (updAp s c f).pending = s.pending := rfl
@[simp] theorem updAp_mdies (c : Nat) (f : Aperture → Aperture) : (updAp s c f).mdies = s.mdies := rfl
@[simp] theorem updAp_ports (c : Nat) (f : Aperture → Aperture) : (updAp s c f).ports = s.ports := rfl
@[simp] theorem updAp_serial (c : Nat) (f : Aperture → Aperture) : (updAp s c f).serial = s.serial := rfl
@[simp] theorem updAp_rev (c : Nat) (f : Aperture → Aperture) : (updAp s c f).rev = s.rev := rfl
@[simp] theorem updAp_cores (c : Nat) (f : Aperture → Aperture) : (updAp s c f).cores = s.cores := rfl
@[simp] theorem updAp_clusters (c : Nat) (f : Aperture → Aperture) : (updAp s c f).clusters = s.clusters := rfl
@[simp] theorem updAp_stks (c : Nat) (f : Aperture → Aperture) : (updAp s c f).stks = s.stks := rfl
@[simp] theorem updAp_mem (c : Nat) (f : Aperture → Aperture) : (updAp s c f).mem = s.mem := rfl
@[simp] theorem updAp_net (c : Nat) (f : Aperture → Aperture) : (updAp s c f).net = s.net := rfl
@[simp] theorem updAp_xlead (c : Nat) (f : Aperture → Aperture) : (updAp s c f).xlead = s.xlead := rfl
@[simp] theorem updAp_xport (c : Nat) (f : Aperture → Aperture) : (updAp s c f).xport = s.xport := rfl
@[simp] theorem updAp_walks (c : Nat) (f : Aperture → Aperture) : (updAp s c f).walks = s.walks := rfl
@[simp] theorem updAp_nextWalk (c : Nat) (f : Aperture → Aperture) : (updAp s c f).nextWalk = s.nextWalk := rfl
@[simp] theorem updAp_parts (c : Nat) (f : Aperture → Aperture) : (updAp s c f).parts = s.parts := rfl
theorem updAp_aps (c : Nat) (f : Aperture → Aperture) : (updAp s c f).aps = smapUpd {} s.aps c f := rfl
@[simp] theorem updAp_pcie (c : Nat) (f : Aperture → Aperture) : (updAp s c f).pcie = s.pcie := rfl
@[simp] theorem updAp_links (c : Nat) (f : Aperture → Aperture) : (updAp s c f).links = s.links := rfl
@[simp] theorem updAp_dev (c : Nat) (f : Aperture → Aperture) : (updAp s c f).dev = s.dev := rfl
@[simp] theorem updAp_power (c : Nat) (f : Aperture → Aperture) : (updAp s c f).power = s.power := rfl
@[simp] theorem updAp_side (c : Nat) (f : Aperture → Aperture) : (updAp s c f).side = s.side := rfl
@[simp] theorem updAp_bars (c : Nat) (f : Aperture → Aperture) : (updAp s c f).bars = s.bars := rfl
@[simp] theorem updAp_nextBar (c : Nat) (f : Aperture → Aperture) : (updAp s c f).nextBar = s.nextBar := rfl
@[simp] theorem updAp_act (c : Nat) (f : Aperture → Aperture) : (updAp s c f).act = s.act := rfl
@[simp] theorem updAp_actMs (c : Nat) (f : Aperture → Aperture) : (updAp s c f).actMs = s.actMs := rfl
@[simp] theorem updAp_stuck (c : Nat) (f : Aperture → Aperture) : (updAp s c f).stuck = s.stuck := rfl
@[simp] theorem updAp_stuckMem (c : Nat) (f : Aperture → Aperture) : (updAp s c f).stuckMem = s.stuckMem := rfl
@[simp] theorem updAp_free (c : Nat) (f : Aperture → Aperture) : (updAp s c f).free = s.free := rfl
@[simp] theorem updAp_blocked (c : Nat) (f : Aperture → Aperture) : (updAp s c f).blocked = s.blocked := rfl

@[simp] theorem updPort_pending (c : Nat) (f : Port → Port) : (updPort s c f).pending = s.pending := rfl
@[simp] theorem updPort_mdies (c : Nat) (f : Port → Port) : (updPort s c f).mdies = s.mdies := rfl
@[simp] theorem updPort_ports (c : Nat) (f : Port → Port) : (updPort s c f).ports = s.ports := rfl
@[simp] theorem updPort_serial (c : Nat) (f : Port → Port) : (updPort s c f).serial = s.serial := rfl
@[simp] theorem updPort_rev (c : Nat) (f : Port → Port) : (updPort s c f).rev = s.rev := rfl
@[simp] theorem updPort_cores (c : Nat) (f : Port → Port) : (updPort s c f).cores = s.cores := rfl
@[simp] theorem updPort_clusters (c : Nat) (f : Port → Port) : (updPort s c f).clusters = s.clusters := rfl
@[simp] theorem updPort_stks (c : Nat) (f : Port → Port) : (updPort s c f).stks = s.stks := rfl
@[simp] theorem updPort_mem (c : Nat) (f : Port → Port) : (updPort s c f).mem = s.mem := rfl
@[simp] theorem updPort_net (c : Nat) (f : Port → Port) : (updPort s c f).net = s.net := rfl
@[simp] theorem updPort_xlead (c : Nat) (f : Port → Port) : (updPort s c f).xlead = s.xlead := rfl
@[simp] theorem updPort_xport (c : Nat) (f : Port → Port) : (updPort s c f).xport = s.xport := rfl
@[simp] theorem updPort_walks (c : Nat) (f : Port → Port) : (updPort s c f).walks = s.walks := rfl
@[simp] theorem updPort_nextWalk (c : Nat) (f : Port → Port) : (updPort s c f).nextWalk = s.nextWalk := rfl
@[simp] theorem updPort_parts (c : Nat) (f : Port → Port) : (updPort s c f).parts = s.parts := rfl
@[simp] theorem updPort_aps (c : Nat) (f : Port → Port) : (updPort s c f).aps = s.aps := rfl
@[simp] theorem updPort_pcie (c : Nat) (f : Port → Port) : (updPort s c f).pcie = s.pcie := rfl
theorem updPort_links (c : Nat) (f : Port → Port) : (updPort s c f).links = smapUpd {} s.links c f := rfl
@[simp] theorem updPort_dev (c : Nat) (f : Port → Port) : (updPort s c f).dev = s.dev := rfl
@[simp] theorem updPort_power (c : Nat) (f : Port → Port) : (updPort s c f).power = s.power := rfl
@[simp] theorem updPort_side (c : Nat) (f : Port → Port) : (updPort s c f).side = s.side := rfl
@[simp] theorem updPort_bars (c : Nat) (f : Port → Port) : (updPort s c f).bars = s.bars := rfl
@[simp] theorem updPort_nextBar (c : Nat) (f : Port → Port) : (updPort s c f).nextBar = s.nextBar := rfl
@[simp] theorem updPort_act (c : Nat) (f : Port → Port) : (updPort s c f).act = s.act := rfl
@[simp] theorem updPort_actMs (c : Nat) (f : Port → Port) : (updPort s c f).actMs = s.actMs := rfl
@[simp] theorem updPort_stuck (c : Nat) (f : Port → Port) : (updPort s c f).stuck = s.stuck := rfl
@[simp] theorem updPort_stuckMem (c : Nat) (f : Port → Port) : (updPort s c f).stuckMem = s.stuckMem := rfl
@[simp] theorem updPort_free (c : Nat) (f : Port → Port) : (updPort s c f).free = s.free := rfl
@[simp] theorem updPort_blocked (c : Nat) (f : Port → Port) : (updPort s c f).blocked = s.blocked := rfl

@[simp] theorem updDev_pending (f : Dev → Dev) : (updDev s f).pending = s.pending := rfl
@[simp] theorem updDev_mdies (f : Dev → Dev) : (updDev s f).mdies = s.mdies := rfl
@[simp] theorem updDev_ports (f : Dev → Dev) : (updDev s f).ports = s.ports := rfl
@[simp] theorem updDev_serial (f : Dev → Dev) : (updDev s f).serial = s.serial := rfl
@[simp] theorem updDev_rev (f : Dev → Dev) : (updDev s f).rev = s.rev := rfl
@[simp] theorem updDev_cores (f : Dev → Dev) : (updDev s f).cores = s.cores := rfl
@[simp] theorem updDev_clusters (f : Dev → Dev) : (updDev s f).clusters = s.clusters := rfl
@[simp] theorem updDev_stks (f : Dev → Dev) : (updDev s f).stks = s.stks := rfl
@[simp] theorem updDev_mem (f : Dev → Dev) : (updDev s f).mem = s.mem := rfl
@[simp] theorem updDev_net (f : Dev → Dev) : (updDev s f).net = s.net := rfl
@[simp] theorem updDev_xlead (f : Dev → Dev) : (updDev s f).xlead = s.xlead := rfl
@[simp] theorem updDev_xport (f : Dev → Dev) : (updDev s f).xport = s.xport := rfl
@[simp] theorem updDev_walks (f : Dev → Dev) : (updDev s f).walks = s.walks := rfl
@[simp] theorem updDev_nextWalk (f : Dev → Dev) : (updDev s f).nextWalk = s.nextWalk := rfl
@[simp] theorem updDev_parts (f : Dev → Dev) : (updDev s f).parts = s.parts := rfl
@[simp] theorem updDev_aps (f : Dev → Dev) : (updDev s f).aps = s.aps := rfl
@[simp] theorem updDev_pcie (f : Dev → Dev) : (updDev s f).pcie = s.pcie := rfl
@[simp] theorem updDev_links (f : Dev → Dev) : (updDev s f).links = s.links := rfl
@[simp] theorem updDev_dev (f : Dev → Dev) : (updDev s f).dev = f s.dev := rfl
@[simp] theorem updDev_power (f : Dev → Dev) : (updDev s f).power = s.power := rfl
@[simp] theorem updDev_side (f : Dev → Dev) : (updDev s f).side = s.side := rfl
@[simp] theorem updDev_bars (f : Dev → Dev) : (updDev s f).bars = s.bars := rfl
@[simp] theorem updDev_nextBar (f : Dev → Dev) : (updDev s f).nextBar = s.nextBar := rfl
@[simp] theorem updDev_act (f : Dev → Dev) : (updDev s f).act = s.act := rfl
@[simp] theorem updDev_actMs (f : Dev → Dev) : (updDev s f).actMs = s.actMs := rfl
@[simp] theorem updDev_stuck (f : Dev → Dev) : (updDev s f).stuck = s.stuck := rfl
@[simp] theorem updDev_stuckMem (f : Dev → Dev) : (updDev s f).stuckMem = s.stuckMem := rfl
@[simp] theorem updDev_free (f : Dev → Dev) : (updDev s f).free = s.free := rfl
@[simp] theorem updDev_blocked (f : Dev → Dev) : (updDev s f).blocked = s.blocked := rfl

@[simp] theorem updNet_pending (f : Net → Net) : (updNet s f).pending = s.pending := rfl
@[simp] theorem updNet_mdies (f : Net → Net) : (updNet s f).mdies = s.mdies := rfl
@[simp] theorem updNet_ports (f : Net → Net) : (updNet s f).ports = s.ports := rfl
@[simp] theorem updNet_serial (f : Net → Net) : (updNet s f).serial = s.serial := rfl
@[simp] theorem updNet_rev (f : Net → Net) : (updNet s f).rev = s.rev := rfl
@[simp] theorem updNet_cores (f : Net → Net) : (updNet s f).cores = s.cores := rfl
@[simp] theorem updNet_clusters (f : Net → Net) : (updNet s f).clusters = s.clusters := rfl
@[simp] theorem updNet_stks (f : Net → Net) : (updNet s f).stks = s.stks := rfl
@[simp] theorem updNet_mem (f : Net → Net) : (updNet s f).mem = s.mem := rfl
@[simp] theorem updNet_net (f : Net → Net) : (updNet s f).net = f s.net := rfl
@[simp] theorem updNet_xlead (f : Net → Net) : (updNet s f).xlead = s.xlead := rfl
@[simp] theorem updNet_xport (f : Net → Net) : (updNet s f).xport = s.xport := rfl
@[simp] theorem updNet_walks (f : Net → Net) : (updNet s f).walks = s.walks := rfl
@[simp] theorem updNet_nextWalk (f : Net → Net) : (updNet s f).nextWalk = s.nextWalk := rfl
@[simp] theorem updNet_parts (f : Net → Net) : (updNet s f).parts = s.parts := rfl
@[simp] theorem updNet_aps (f : Net → Net) : (updNet s f).aps = s.aps := rfl
@[simp] theorem updNet_pcie (f : Net → Net) : (updNet s f).pcie = s.pcie := rfl
@[simp] theorem updNet_links (f : Net → Net) : (updNet s f).links = s.links := rfl
@[simp] theorem updNet_dev (f : Net → Net) : (updNet s f).dev = s.dev := rfl
@[simp] theorem updNet_power (f : Net → Net) : (updNet s f).power = s.power := rfl
@[simp] theorem updNet_side (f : Net → Net) : (updNet s f).side = s.side := rfl
@[simp] theorem updNet_bars (f : Net → Net) : (updNet s f).bars = s.bars := rfl
@[simp] theorem updNet_nextBar (f : Net → Net) : (updNet s f).nextBar = s.nextBar := rfl
@[simp] theorem updNet_act (f : Net → Net) : (updNet s f).act = s.act := rfl
@[simp] theorem updNet_actMs (f : Net → Net) : (updNet s f).actMs = s.actMs := rfl
@[simp] theorem updNet_stuck (f : Net → Net) : (updNet s f).stuck = s.stuck := rfl
@[simp] theorem updNet_stuckMem (f : Net → Net) : (updNet s f).stuckMem = s.stuckMem := rfl
@[simp] theorem updNet_free (f : Net → Net) : (updNet s f).free = s.free := rfl
@[simp] theorem updNet_blocked (f : Net → Net) : (updNet s f).blocked = s.blocked := rfl

@[simp] theorem updMem_pending (f : Mem → Mem) : (updMem s f).pending = s.pending := rfl
@[simp] theorem updMem_mdies (f : Mem → Mem) : (updMem s f).mdies = s.mdies := rfl
@[simp] theorem updMem_ports (f : Mem → Mem) : (updMem s f).ports = s.ports := rfl
@[simp] theorem updMem_serial (f : Mem → Mem) : (updMem s f).serial = s.serial := rfl
@[simp] theorem updMem_rev (f : Mem → Mem) : (updMem s f).rev = s.rev := rfl
@[simp] theorem updMem_cores (f : Mem → Mem) : (updMem s f).cores = s.cores := rfl
@[simp] theorem updMem_clusters (f : Mem → Mem) : (updMem s f).clusters = s.clusters := rfl
@[simp] theorem updMem_stks (f : Mem → Mem) : (updMem s f).stks = s.stks := rfl
@[simp] theorem updMem_mem (f : Mem → Mem) : (updMem s f).mem = f s.mem := rfl
@[simp] theorem updMem_net (f : Mem → Mem) : (updMem s f).net = s.net := rfl
@[simp] theorem updMem_xlead (f : Mem → Mem) : (updMem s f).xlead = s.xlead := rfl
@[simp] theorem updMem_xport (f : Mem → Mem) : (updMem s f).xport = s.xport := rfl
@[simp] theorem updMem_walks (f : Mem → Mem) : (updMem s f).walks = s.walks := rfl
@[simp] theorem updMem_nextWalk (f : Mem → Mem) : (updMem s f).nextWalk = s.nextWalk := rfl
@[simp] theorem updMem_parts (f : Mem → Mem) : (updMem s f).parts = s.parts := rfl
@[simp] theorem updMem_aps (f : Mem → Mem) : (updMem s f).aps = s.aps := rfl
@[simp] theorem updMem_pcie (f : Mem → Mem) : (updMem s f).pcie = s.pcie := rfl
@[simp] theorem updMem_links (f : Mem → Mem) : (updMem s f).links = s.links := rfl
@[simp] theorem updMem_dev (f : Mem → Mem) : (updMem s f).dev = s.dev := rfl
@[simp] theorem updMem_power (f : Mem → Mem) : (updMem s f).power = s.power := rfl
@[simp] theorem updMem_side (f : Mem → Mem) : (updMem s f).side = s.side := rfl
@[simp] theorem updMem_bars (f : Mem → Mem) : (updMem s f).bars = s.bars := rfl
@[simp] theorem updMem_nextBar (f : Mem → Mem) : (updMem s f).nextBar = s.nextBar := rfl
@[simp] theorem updMem_act (f : Mem → Mem) : (updMem s f).act = s.act := rfl
@[simp] theorem updMem_actMs (f : Mem → Mem) : (updMem s f).actMs = s.actMs := rfl
@[simp] theorem updMem_stuck (f : Mem → Mem) : (updMem s f).stuck = s.stuck := rfl
@[simp] theorem updMem_stuckMem (f : Mem → Mem) : (updMem s f).stuckMem = s.stuckMem := rfl
@[simp] theorem updMem_free (f : Mem → Mem) : (updMem s f).free = s.free := rfl
@[simp] theorem updMem_blocked (f : Mem → Mem) : (updMem s f).blocked = s.blocked := rfl

@[simp] theorem updPower_pending (f : Power → Power) : (updPower s f).pending = s.pending := rfl
@[simp] theorem updPower_mdies (f : Power → Power) : (updPower s f).mdies = s.mdies := rfl
@[simp] theorem updPower_ports (f : Power → Power) : (updPower s f).ports = s.ports := rfl
@[simp] theorem updPower_serial (f : Power → Power) : (updPower s f).serial = s.serial := rfl
@[simp] theorem updPower_rev (f : Power → Power) : (updPower s f).rev = s.rev := rfl
@[simp] theorem updPower_cores (f : Power → Power) : (updPower s f).cores = s.cores := rfl
@[simp] theorem updPower_clusters (f : Power → Power) : (updPower s f).clusters = s.clusters := rfl
@[simp] theorem updPower_stks (f : Power → Power) : (updPower s f).stks = s.stks := rfl
@[simp] theorem updPower_mem (f : Power → Power) : (updPower s f).mem = s.mem := rfl
@[simp] theorem updPower_net (f : Power → Power) : (updPower s f).net = s.net := rfl
@[simp] theorem updPower_xlead (f : Power → Power) : (updPower s f).xlead = s.xlead := rfl
@[simp] theorem updPower_xport (f : Power → Power) : (updPower s f).xport = s.xport := rfl
@[simp] theorem updPower_walks (f : Power → Power) : (updPower s f).walks = s.walks := rfl
@[simp] theorem updPower_nextWalk (f : Power → Power) : (updPower s f).nextWalk = s.nextWalk := rfl
@[simp] theorem updPower_parts (f : Power → Power) : (updPower s f).parts = s.parts := rfl
@[simp] theorem updPower_aps (f : Power → Power) : (updPower s f).aps = s.aps := rfl
@[simp] theorem updPower_pcie (f : Power → Power) : (updPower s f).pcie = s.pcie := rfl
@[simp] theorem updPower_links (f : Power → Power) : (updPower s f).links = s.links := rfl
@[simp] theorem updPower_dev (f : Power → Power) : (updPower s f).dev = s.dev := rfl
@[simp] theorem updPower_power (f : Power → Power) : (updPower s f).power = f s.power := rfl
@[simp] theorem updPower_side (f : Power → Power) : (updPower s f).side = s.side := rfl
@[simp] theorem updPower_bars (f : Power → Power) : (updPower s f).bars = s.bars := rfl
@[simp] theorem updPower_nextBar (f : Power → Power) : (updPower s f).nextBar = s.nextBar := rfl
@[simp] theorem updPower_act (f : Power → Power) : (updPower s f).act = s.act := rfl
@[simp] theorem updPower_actMs (f : Power → Power) : (updPower s f).actMs = s.actMs := rfl
@[simp] theorem updPower_stuck (f : Power → Power) : (updPower s f).stuck = s.stuck := rfl
@[simp] theorem updPower_stuckMem (f : Power → Power) : (updPower s f).stuckMem = s.stuckMem := rfl
@[simp] theorem updPower_free (f : Power → Power) : (updPower s f).free = s.free := rfl
@[simp] theorem updPower_blocked (f : Power → Power) : (updPower s f).blocked = s.blocked := rfl

/-- Two changes that agree on what is there. -/
theorem updCore_congr {s : State} {c : Nat} {f g : Core → Core} (h : f (getCore s c) = g (getCore s c)) : updCore s c f = updCore s c g := by
  simp only [updCore, smapUpd]; unfold getCore at h; rw [h]
/-- Two changes that agree on what is there. -/
theorem updClu_congr {s : State} {c : Nat} {f g : Cluster → Cluster} (h : f (getClu s c) = g (getClu s c)) : updClu s c f = updClu s c g := by
  simp only [updClu, smapUpd]; unfold getClu at h; rw [h]
/-- Two changes that agree on what is there. -/
theorem updStk_congr {s : State} {c : Nat} {f g : Stack → Stack} (h : f (getStk s c) = g (getStk s c)) : updStk s c f = updStk s c g := by
  simp only [updStk, smapUpd]; unfold getStk at h; rw [h]
/-- Two changes that agree on what is there. -/
theorem updPart_congr {s : State} {c : Nat} {f g : Part → Part} (h : f (getPart s c) = g (getPart s c)) : updPart s c f = updPart s c g := by
  simp only [updPart, smapUpd]; unfold getPart at h; rw [h]
/-- Two changes that agree on what is there. -/
theorem updAp_congr {s : State} {c : Nat} {f g : Aperture → Aperture} (h : f (getAp s c) = g (getAp s c)) : updAp s c f = updAp s c g := by
  simp only [updAp, smapUpd]; unfold getAp at h; rw [h]
/-- Two changes that agree on what is there. -/
theorem updPort_congr {s : State} {c : Nat} {f g : Port → Port} (h : f (getPort s c) = g (getPort s c)) : updPort s c f = updPort s c g := by
  simp only [updPort, smapUpd]; unfold getPort at h; rw [h]

/-! ### The tables after an update -/

theorem getCore_updCore (c d : Nat) (f : Core → Core) : getCore (updCore s c f) d = if d = c then f (getCore s c) else getCore s d := smapGet_upd ..
@[simp] theorem getCore_updCore_same (c : Nat) (f : Core → Core) : getCore (updCore s c f) c = f (getCore s c) := smapGet_upd_same ..
@[simp] theorem getCore_updClu (c : Nat) (f : Cluster → Cluster) (d : Nat) : getCore (updClu s c f) d = getCore s d := rfl
@[simp] theorem getCore_updStk (c : Nat) (f : Stack → Stack) (d : Nat) : getCore (updStk s c f) d = getCore s d := rfl
@[simp] theorem getCore_updPart (c : Nat) (f : Part → Part) (d : Nat) : getCore (updPart s c f) d = getCore s d := rfl
@[simp] theorem getCore_updAp (c : Nat) (f : Aperture → Aperture) (d : Nat) : getCore (updAp s c f) d = getCore s d := rfl
@[simp] theorem getCore_updPort (c : Nat) (f : Port → Port) (d : Nat) : getCore (updPort s c f) d = getCore s d := rfl
@[simp] theorem getCore_updDev (f : Dev → Dev) (d : Nat) : getCore (updDev s f) d = getCore s d := rfl
@[simp] theorem getCore_updNet (f : Net → Net) (d : Nat) : getCore (updNet s f) d = getCore s d := rfl
@[simp] theorem getCore_updMem (f : Mem → Mem) (d : Nat) : getCore (updMem s f) d = getCore s d := rfl
@[simp] theorem getCore_updPower (f : Power → Power) (d : Nat) : getCore (updPower s f) d = getCore s d := rfl

@[simp] theorem getClu_updCore (c : Nat) (f : Core → Core) (d : Nat) : getClu (updCore s c f) d = getClu s d := rfl
theorem getClu_updClu (c d : Nat) (f : Cluster → Cluster) : getClu (updClu s c f) d = if d = c then f (getClu s c) else getClu s d := smapGet_upd ..
@[simp] theorem getClu_updClu_same (c : Nat) (f : Cluster → Cluster) : getClu (updClu s c f) c = f (getClu s c) := smapGet_upd_same ..
@[simp] theorem getClu_updStk (c : Nat) (f : Stack → Stack) (d : Nat) : getClu (updStk s c f) d = getClu s d := rfl
@[simp] theorem getClu_updPart (c : Nat) (f : Part → Part) (d : Nat) : getClu (updPart s c f) d = getClu s d := rfl
@[simp] theorem getClu_updAp (c : Nat) (f : Aperture → Aperture) (d : Nat) : getClu (updAp s c f) d = getClu s d := rfl
@[simp] theorem getClu_updPort (c : Nat) (f : Port → Port) (d : Nat) : getClu (updPort s c f) d = getClu s d := rfl
@[simp] theorem getClu_updDev (f : Dev → Dev) (d : Nat) : getClu (updDev s f) d = getClu s d := rfl
@[simp] theorem getClu_updNet (f : Net → Net) (d : Nat) : getClu (updNet s f) d = getClu s d := rfl
@[simp] theorem getClu_updMem (f : Mem → Mem) (d : Nat) : getClu (updMem s f) d = getClu s d := rfl
@[simp] theorem getClu_updPower (f : Power → Power) (d : Nat) : getClu (updPower s f) d = getClu s d := rfl

@[simp] theorem getStk_updCore (c : Nat) (f : Core → Core) (d : Nat) : getStk (updCore s c f) d = getStk s d := rfl
@[simp] theorem getStk_updClu (c : Nat) (f : Cluster → Cluster) (d : Nat) : getStk (updClu s c f) d = getStk s d := rfl
theorem getStk_updStk (c d : Nat) (f : Stack → Stack) : getStk (updStk s c f) d = if d = c then f (getStk s c) else getStk s d := smapGet_upd ..
@[simp] theorem getStk_updStk_same (c : Nat) (f : Stack → Stack) : getStk (updStk s c f) c = f (getStk s c) := smapGet_upd_same ..
@[simp] theorem getStk_updPart (c : Nat) (f : Part → Part) (d : Nat) : getStk (updPart s c f) d = getStk s d := rfl
@[simp] theorem getStk_updAp (c : Nat) (f : Aperture → Aperture) (d : Nat) : getStk (updAp s c f) d = getStk s d := rfl
@[simp] theorem getStk_updPort (c : Nat) (f : Port → Port) (d : Nat) : getStk (updPort s c f) d = getStk s d := rfl
@[simp] theorem getStk_updDev (f : Dev → Dev) (d : Nat) : getStk (updDev s f) d = getStk s d := rfl
@[simp] theorem getStk_updNet (f : Net → Net) (d : Nat) : getStk (updNet s f) d = getStk s d := rfl
@[simp] theorem getStk_updMem (f : Mem → Mem) (d : Nat) : getStk (updMem s f) d = getStk s d := rfl
@[simp] theorem getStk_updPower (f : Power → Power) (d : Nat) : getStk (updPower s f) d = getStk s d := rfl

@[simp] theorem getPart_updCore (c : Nat) (f : Core → Core) (d : Nat) : getPart (updCore s c f) d = getPart s d := rfl
@[simp] theorem getPart_updClu (c : Nat) (f : Cluster → Cluster) (d : Nat) : getPart (updClu s c f) d = getPart s d := rfl
@[simp] theorem getPart_updStk (c : Nat) (f : Stack → Stack) (d : Nat) : getPart (updStk s c f) d = getPart s d := rfl
theorem getPart_updPart (c d : Nat) (f : Part → Part) : getPart (updPart s c f) d = if d = c then f (getPart s c) else getPart s d := smapGet_upd ..
@[simp] theorem getPart_updPart_same (c : Nat) (f : Part → Part) : getPart (updPart s c f) c = f (getPart s c) := smapGet_upd_same ..
@[simp] theorem getPart_updAp (c : Nat) (f : Aperture → Aperture) (d : Nat) : getPart (updAp s c f) d = getPart s d := rfl
@[simp] theorem getPart_updPort (c : Nat) (f : Port → Port) (d : Nat) : getPart (updPort s c f) d = getPart s d := rfl
@[simp] theorem getPart_updDev (f : Dev → Dev) (d : Nat) : getPart (updDev s f) d = getPart s d := rfl
@[simp] theorem getPart_updNet (f : Net → Net) (d : Nat) : getPart (updNet s f) d = getPart s d := rfl
@[simp] theorem getPart_updMem (f : Mem → Mem) (d : Nat) : getPart (updMem s f) d = getPart s d := rfl
@[simp] theorem getPart_updPower (f : Power → Power) (d : Nat) : getPart (updPower s f) d = getPart s d := rfl

@[simp] theorem getAp_updCore (c : Nat) (f : Core → Core) (d : Nat) : getAp (updCore s c f) d = getAp s d := rfl
@[simp] theorem getAp_updClu (c : Nat) (f : Cluster → Cluster) (d : Nat) : getAp (updClu s c f) d = getAp s d := rfl
@[simp] theorem getAp_updStk (c : Nat) (f : Stack → Stack) (d : Nat) : getAp (updStk s c f) d = getAp s d := rfl
@[simp] theorem getAp_updPart (c : Nat) (f : Part → Part) (d : Nat) : getAp (updPart s c f) d = getAp s d := rfl
theorem getAp_updAp (c d : Nat) (f : Aperture → Aperture) : getAp (updAp s c f) d = if d = c then f (getAp s c) else getAp s d := smapGet_upd ..
@[simp] theorem getAp_updAp_same (c : Nat) (f : Aperture → Aperture) : getAp (updAp s c f) c = f (getAp s c) := smapGet_upd_same ..
@[simp] theorem getAp_updPort (c : Nat) (f : Port → Port) (d : Nat) : getAp (updPort s c f) d = getAp s d := rfl
@[simp] theorem getAp_updDev (f : Dev → Dev) (d : Nat) : getAp (updDev s f) d = getAp s d := rfl
@[simp] theorem getAp_updNet (f : Net → Net) (d : Nat) : getAp (updNet s f) d = getAp s d := rfl
@[simp] theorem getAp_updMem (f : Mem → Mem) (d : Nat) : getAp (updMem s f) d = getAp s d := rfl
@[simp] theorem getAp_updPower (f : Power → Power) (d : Nat) : getAp (updPower s f) d = getAp s d := rfl

@[simp] theorem getPort_updCore (c : Nat) (f : Core → Core) (d : Nat) : getPort (updCore s c f) d = getPort s d := rfl
@[simp] theorem getPort_updClu (c : Nat) (f : Cluster → Cluster) (d : Nat) : getPort (updClu s c f) d = getPort s d := rfl
@[simp] theorem getPort_updStk (c : Nat) (f : Stack → Stack) (d : Nat) : getPort (updStk s c f) d = getPort s d := rfl
@[simp] theorem getPort_updPart (c : Nat) (f : Part → Part) (d : Nat) : getPort (updPart s c f) d = getPort s d := rfl
@[simp] theorem getPort_updAp (c : Nat) (f : Aperture → Aperture) (d : Nat) : getPort (updAp s c f) d = getPort s d := rfl
theorem getPort_updPort (c d : Nat) (f : Port → Port) : getPort (updPort s c f) d = if d = c then f (getPort s c) else getPort s d := smapGet_upd ..
@[simp] theorem getPort_updPort_same (c : Nat) (f : Port → Port) : getPort (updPort s c f) c = f (getPort s c) := smapGet_upd_same ..
@[simp] theorem getPort_updDev (f : Dev → Dev) (d : Nat) : getPort (updDev s f) d = getPort s d := rfl
@[simp] theorem getPort_updNet (f : Net → Net) (d : Nat) : getPort (updNet s f) d = getPort s d := rfl
@[simp] theorem getPort_updMem (f : Mem → Mem) (d : Nat) : getPort (updMem s f) d = getPort s d := rfl
@[simp] theorem getPort_updPower (f : Power → Power) (d : Nat) : getPort (updPower s f) d = getPort s d := rfl

/-! ### Outcomes -/

/-- Where the package acts, a command's outcome is the state it makes, with what manufacture fixed and the queue as they were. -/
theorem live_awake {s : State} (h : awake s = true) (t : State) : live s t = .next (ofPackage s t) := by simp [live, h]

/-- Where the package does not act, a command changes nothing. -/
theorem live_asleep {s : State} (h : awake s = false) (t : State) : live s t = .next s := by simp [live, h]

/-- A command that nothing holds up has its effect. -/
theorem ofPackage_open (s : State) {t : State} (h : t.blocked = none) : ofPackage s t =
    { t with pending := s.pending, mdies := s.mdies, ports := s.ports, serial := s.serial, rev := s.rev, blocked := s.blocked } := by
  simp [ofPackage, h]

/-- An event that is not due yet leaves nothing but the note of its wait. -/
theorem ofPackage_held {s t : State} {w : Wait} (h : t.blocked = some w) (hs : s.blocked = none) : ofPackage s t = noteWait (some w) s := by
  simp [ofPackage, h, hs]

/-- A note of a wait is in the list of those that wait for a bank, and nowhere else. -/
theorem noteWait_eq (w : Option Wait) (s : State) : ∃ l, noteWait w s = { s with mem := { s.mem with waits := l } } := by
  unfold noteWait; split
  · split
    · exact ⟨s.mem.waits, rfl⟩
    · exact ⟨_, rfl⟩
  · exact ⟨s.mem.waits, rfl⟩

/-- What no command changes: the queue, what manufacture fixed, and that nothing is held up. -/
theorem ofPackage_fixed (s t : State) : (ofPackage s t).pending = s.pending ∧ (ofPackage s t).mdies = s.mdies ∧ (ofPackage s t).ports = s.ports
    ∧ (ofPackage s t).serial = s.serial ∧ (ofPackage s t).rev = s.rev ∧ (ofPackage s t).blocked = s.blocked := by
  unfold ofPackage; split
  · obtain ⟨l, hl⟩ := noteWait_eq t.blocked s; rw [hl]; exact ⟨rfl, rfl, rfl, rfl, rfl, rfl⟩
  · exact ⟨rfl, rfl, rfl, rfl, rfl, rfl⟩

/-- Every outcome of `live` is a next state of the same package. -/
theorem live_next (s t : State) : ∃ u, live s t = .next u ∧ u.pending = s.pending ∧ u.mdies = s.mdies ∧ u.ports = s.ports
    ∧ u.serial = s.serial ∧ u.rev = s.rev ∧ u.blocked = s.blocked := by
  unfold live; split
  · exact ⟨_, rfl, ofPackage_fixed s t⟩
  · exact ⟨_, rfl, rfl, rfl, rfl, rfl, rfl, rfl⟩

/-- Every outcome of `pinned` is a next state of the same package. -/
theorem pinned_next (s t : State) : ∃ u, pinned s t = .next u ∧ u.pending = s.pending ∧ u.mdies = s.mdies ∧ u.ports = s.ports
    ∧ u.serial = s.serial ∧ u.rev = s.rev ∧ u.blocked = s.blocked := ⟨_, rfl, ofPackage_fixed s t⟩

/-- A state of the package itself is its own outcome. -/
theorem ofPackage_eq {s t : State} (hp : t.pending = s.pending) (h1 : t.mdies = s.mdies) (h2 : t.ports = s.ports) (h3 : t.serial = s.serial)
    (h4 : t.rev = s.rev) (h5 : t.blocked = s.blocked) : ofPackage s t = t := by
  have h : (t.blocked.isSome && s.blocked.isNone) = false := by rw [h5]; cases s.blocked <;> rfl
  unfold ofPackage; rw [h]; cases t; simp_all

@[simp] theorem getCore_ofPackage {t : State} (h : t.blocked = none) (c : Nat) : getCore (ofPackage s t) c = getCore t c := by rw [ofPackage_open s h]; rfl
@[simp] theorem getClu_ofPackage {t : State} (h : t.blocked = none) (c : Nat) : getClu (ofPackage s t) c = getClu t c := by rw [ofPackage_open s h]; rfl
@[simp] theorem getStk_ofPackage {t : State} (h : t.blocked = none) (c : Nat) : getStk (ofPackage s t) c = getStk t c := by rw [ofPackage_open s h]; rfl
@[simp] theorem getPart_ofPackage {t : State} (h : t.blocked = none) (c : Nat) : getPart (ofPackage s t) c = getPart t c := by rw [ofPackage_open s h]; rfl
@[simp] theorem getAp_ofPackage {t : State} (h : t.blocked = none) (c : Nat) : getAp (ofPackage s t) c = getAp t c := by rw [ofPackage_open s h]; rfl
@[simp] theorem getPort_ofPackage {t : State} (h : t.blocked = none) (c : Nat) : getPort (ofPackage s t) c = getPort t c := by rw [ofPackage_open s h]; rfl
@[simp] theorem ofPackage_pending (t : State) : (ofPackage s t).pending = s.pending := (ofPackage_fixed s t).1
@[simp] theorem ofPackage_mdies (t : State) : (ofPackage s t).mdies = s.mdies := (ofPackage_fixed s t).2.1
@[simp] theorem ofPackage_ports (t : State) : (ofPackage s t).ports = s.ports := (ofPackage_fixed s t).2.2.1
@[simp] theorem ofPackage_serial (t : State) : (ofPackage s t).serial = s.serial := (ofPackage_fixed s t).2.2.2.1
@[simp] theorem ofPackage_rev (t : State) : (ofPackage s t).rev = s.rev := (ofPackage_fixed s t).2.2.2.2.1
@[simp] theorem ofPackage_cores {t : State} (h : t.blocked = none) : (ofPackage s t).cores = t.cores := by rw [ofPackage_open s h]
@[simp] theorem ofPackage_clusters {t : State} (h : t.blocked = none) : (ofPackage s t).clusters = t.clusters := by rw [ofPackage_open s h]
@[simp] theorem ofPackage_stks {t : State} (h : t.blocked = none) : (ofPackage s t).stks = t.stks := by rw [ofPackage_open s h]
@[simp] theorem ofPackage_mem {t : State} (h : t.blocked = none) : (ofPackage s t).mem = t.mem := by rw [ofPackage_open s h]
@[simp] theorem ofPackage_net {t : State} (h : t.blocked = none) : (ofPackage s t).net = t.net := by rw [ofPackage_open s h]
@[simp] theorem ofPackage_xlead {t : State} (h : t.blocked = none) : (ofPackage s t).xlead = t.xlead := by rw [ofPackage_open s h]
@[simp] theorem ofPackage_xport {t : State} (h : t.blocked = none) : (ofPackage s t).xport = t.xport := by rw [ofPackage_open s h]
@[simp] theorem ofPackage_walks {t : State} (h : t.blocked = none) : (ofPackage s t).walks = t.walks := by rw [ofPackage_open s h]
@[simp] theorem ofPackage_nextWalk {t : State} (h : t.blocked = none) : (ofPackage s t).nextWalk = t.nextWalk := by rw [ofPackage_open s h]
@[simp] theorem ofPackage_parts {t : State} (h : t.blocked = none) : (ofPackage s t).parts = t.parts := by rw [ofPackage_open s h]
@[simp] theorem ofPackage_aps {t : State} (h : t.blocked = none) : (ofPackage s t).aps = t.aps := by rw [ofPackage_open s h]
@[simp] theorem ofPackage_pcie {t : State} (h : t.blocked = none) : (ofPackage s t).pcie = t.pcie := by rw [ofPackage_open s h]
@[simp] theorem ofPackage_links {t : State} (h : t.blocked = none) : (ofPackage s t).links = t.links := by rw [ofPackage_open s h]
@[simp] theorem ofPackage_dev {t : State} (h : t.blocked = none) : (ofPackage s t).dev = t.dev := by rw [ofPackage_open s h]
@[simp] theorem ofPackage_power {t : State} (h : t.blocked = none) : (ofPackage s t).power = t.power := by rw [ofPackage_open s h]
@[simp] theorem ofPackage_side {t : State} (h : t.blocked = none) : (ofPackage s t).side = t.side := by rw [ofPackage_open s h]
@[simp] theorem ofPackage_bars {t : State} (h : t.blocked = none) : (ofPackage s t).bars = t.bars := by rw [ofPackage_open s h]
@[simp] theorem ofPackage_nextBar {t : State} (h : t.blocked = none) : (ofPackage s t).nextBar = t.nextBar := by rw [ofPackage_open s h]
@[simp] theorem ofPackage_act {t : State} (h : t.blocked = none) : (ofPackage s t).act = t.act := by rw [ofPackage_open s h]
@[simp] theorem ofPackage_actMs {t : State} (h : t.blocked = none) : (ofPackage s t).actMs = t.actMs := by rw [ofPackage_open s h]
@[simp] theorem ofPackage_stuck {t : State} (h : t.blocked = none) : (ofPackage s t).stuck = t.stuck := by rw [ofPackage_open s h]
@[simp] theorem ofPackage_stuckMem {t : State} (h : t.blocked = none) : (ofPackage s t).stuckMem = t.stuckMem := by rw [ofPackage_open s h]
@[simp] theorem ofPackage_free {t : State} (h : t.blocked = none) : (ofPackage s t).free = t.free := by rw [ofPackage_open s h]
@[simp] theorem ofPackage_blocked (t : State) : (ofPackage s t).blocked = s.blocked := (ofPackage_fixed s t).2.2.2.2.2

end Sys2Proof.Machine
end

