-- ==== Sys2Proof/Laws/Exec.lean ====
section
/-! SUPPORT. What every command's outcome is: one lemma for the commands of the pins, VAUX and the SMBus, one for all others. -/

namespace Sys2Proof.Machine

/-- A command that no pin, VAUX or SMBus carries acts only where the package acts. -/
theorem exec_live (i : Instr) (h : pinCommand i = false) (s : State) : ∃ t, exec i s = live s t := by
  cases i <;> first | (cases h; done) | exact ⟨_, rfl⟩

/-- A command of a pin, VAUX or the SMBus acts in every state. -/
theorem exec_pinned (i : Instr) (h : pinCommand i = true) (s : State) : ∃ t, exec i s = pinned s t := by
  cases i <;> first | (cases h; done) | exact ⟨_, rfl⟩

/-- Every command answers a next state of the same package with the same queue. -/
theorem exec_next (i : Instr) (s : State) : ∃ u, exec i s = .next u ∧ u.pending = s.pending ∧ u.mdies = s.mdies ∧ u.ports = s.ports
    ∧ u.serial = s.serial ∧ u.rev = s.rev ∧ u.blocked = s.blocked := by
  cases h : pinCommand i with
  | true => obtain ⟨t, ht⟩ := exec_pinned i h s; rw [ht]; exact pinned_next s t
  | false => obtain ⟨t, ht⟩ := exec_live i h s; rw [ht]; exact live_next s t

end Sys2Proof.Machine
end

