-- ==== Sys2Proof/Laws/Cores.lean ====
section
/-! SUPPORT. What dispatch does: the shared steps of every macro-op of a core. -/

namespace Sys2Proof.Machine

variable {s : State} {c o : Nat} {e : QEnt}

/-- A poised core can dispatch. -/
theorem Poised_dispatchable (h : Poised s c o e) : dispatchable s c o = true := by
  obtain ⟨_, h2, h3, h4, h5, h6⟩ := h
  simp only [dispatchable, coreLive, h2, h3, h4]
  cases hq : (getCore s c).queue with
  | nil => simp [hq] at h5
  | cons a l => simp [hq] at h5; subst h5; simp [h6]

/-- The macro-op at the front of a poised core's queue. -/
theorem Poised_front (h : Poised s c o e) : frontOp s c = e := by
  obtain ⟨_, _, _, _, h5, _⟩ := h
  simp [frontOp, h5]

/-- A core that nothing drains stays as it is. -/
theorem settleCore_steady (h : Steady s c) : settleCore c s = s := by
  unfold settleCore
  rcases h with h | h <;> simp [h]

/-- A core that holds a macro-op in a unit is not settled. -/
theorem settleCore_busy (h : (getCore s c).ops ≠ []) : settleCore c s = s := by
  unfold settleCore
  simp [h]

/-- A core that waits is not settled. -/
theorem settleCore_held (h : (getCore s c).hold ≠ none) : settleCore c s = s := by
  unfold settleCore
  cases hh : (getCore s c).hold with
  | none => exact absurd hh h
  | some _ => simp [hh]

/-- A change that leaves a core's binding alone leaves it steady. -/
theorem Steady_updCore (f : Core → Core) (h1 : ∀ k, (f k).bindEn = k.bindEn) (h2 : ∀ k, (f k).bindSeq = k.bindSeq) (h : Steady s c) :
    Steady (updCore s c f) c := by
  unfold Steady at *
  simp only [getSeq, getCore_updCore_same, h1, h2, getClu_updCore] at *; exact h

theorem Steady_popQueue (h : Steady s c) : Steady (popQueue c s) c := Steady_updCore _ (fun _ => rfl) (fun _ => rfl) h

/-- The outcome where a command changes one core alone. -/
theorem live_updCore (h : awake s = true) (c : Nat) (f : Core → Core) : live s (updCore s c f) = .next (updCore s c f) := by
  rw [live_awake h, ofPackage_eq] <;> rfl

/-- A control macro-op that is accepted has its effect on the core from which it has been taken. -/
theorem dispatchCtrl_accepted (f : QEnt → State → State) (h : Poised s c o e) (ha : Accepted s c e) :
    dispatchCtrl c o f s = settleCore c (f e (popQueue c s)) := by
  simp [dispatchCtrl, Poised_dispatchable h, Poised_front h, ha.1, ha.2]

/-- A control macro-op whose PG test fails only leaves the queue. -/
theorem dispatchCtrl_skipped (f : QEnt → State → State) (h : Poised s c o e) (hp : pgSkips (getCore s c) e.word = true) :
    dispatchCtrl c o f s = settleCore c (popQueue c s) := by
  simp [dispatchCtrl, Poised_dispatchable h, Poised_front h, hp]

/-- A control macro-op whose effect is on its core alone: the outcome. -/
theorem live_dispatchCtrl {f : QEnt → State → State} {g : Core → Core} (hf : ∀ s, f e s = updCore s c g) (h : Poised s c o e)
    (hs : Steady s c) (ha : Accepted s c e) (h1 : ∀ k, (g k).bindEn = k.bindEn) (h2 : ∀ k, (g k).bindSeq = k.bindSeq) :
    live s (dispatchCtrl c o f s) = .next (taken c g s) := by
  rw [dispatchCtrl_accepted f h ha, hf, settleCore_steady (Steady_updCore g h1 h2 (Steady_popQueue hs)), live_awake h.1, ofPackage_eq]
    <;> rfl

/-- A macro-op of a unit whose PG test fails only leaves the queue. -/
theorem dispatchUnit_skipped (h : Poised s c o e) (hp : pgSkips (getCore s c) e.word = true) :
    dispatchUnit c o s = settleCore c (popQueue c s) := by
  simp [dispatchUnit, Poised_dispatchable h, Poised_front h, hp]

/-- A macro-op of a unit that is refused faults its core. -/
theorem dispatchUnit_refused {u : UnitKind} {code : Nat} (hu : unitOf o = some u) (h : Poised s c o e)
    (hp : pgSkips (getCore s c) e.word = false) (hr : ((getCore s c).ops.filter fun p => p.kind == u).length < 8)
    (hc : refusal s c (coreArgs (getCore s c) e.word) = some code) :
    dispatchUnit c o s = stopFault c code o e.addr (refusedAddr c code (coreArgs (getCore s c) e.word)) (popQueue c s) := by
  simp [dispatchUnit, Poised_dispatchable h, Poised_front h, hp, hu, Nat.not_le.2 hr, hc]

/-- A macro-op of a unit that is accepted enters its unit. -/
theorem dispatchUnit_accepted {u : UnitKind} (hu : unitOf o = some u) (h : Poised s c o e) (ha : Accepted s c e)
    (hr : ((getCore s c).ops.filter fun p => p.kind == u).length < 8) :
    dispatchUnit c o s = pump c (enterUnit c u e (popQueue c s)) := by
  simp [dispatchUnit, Poised_dispatchable h, Poised_front h, ha.1, hu, Nat.not_le.2 hr, ha.2]

end Sys2Proof.Machine
end

