-- ==== Sys2Proof/Laws/Host.lean ====
section
/-! SUPPORT. What a host command of an aperture can do (R306): wait, be answered INVALID or STATE, or run its body in its turn. -/

namespace Sys2Proof.Machine

variable {s : State} {a op : Nat} {c : Cmd} {refs : Cmd → State → Option (Nat × Nat)} {legal : State → Bool} {body : Cmd → State → State}

/-- A command whose turn has come and whose checks pass runs its body. -/
theorem cmdRun_runs (h : Current s a op c) (hr : refs c s = none) (hl : legal s = true) :
    live s (cmdRun a op refs legal body s) = .next (ofPackage s (body c (takeTurn a s))) := by
  obtain ⟨hw, hc, ho, hs, ht⟩ := h
  simp [live_awake hw, cmdRun, hc, ho, ht, hr, hs, hl, lowerRef]

/-- A command whose turn has come with a bad reference is answered INVALID. -/
theorem cmdRun_invalid {e : Nat × Nat} (h : Current s a op c) (hr : refs c s = some e) :
    live s (cmdRun a op refs legal body s) = .next (answered s a stInvalid (invalidResult e.1 e.2) (takeTurn a s)) := by
  obtain ⟨hw, hc, ho, hs, ht⟩ := h
  simp [live_awake hw, cmdRun, hc, ho, ht, hr, hs, lowerRef, answered]

/-- A command whose turn has come in a state that does not allow it is answered STATE. -/
theorem cmdRun_state (h : Current s a op c) (hr : refs c s = none) (hl : legal s = false) :
    live s (cmdRun a op refs legal body s) = .next (answered s a stState (stateResult s (apPart s a) 0) (takeTurn a s)) := by
  obtain ⟨hw, hc, ho, hs, ht⟩ := h
  simp [live_awake hw, cmdRun, hc, ho, ht, hr, hs, hl, lowerRef, answered]

/-- A command that is not in progress, or whose turn it is not, changes nothing. -/
theorem cmdRun_waits (h : ∀ c, (getAp s a).cur = some c → c.opcode = op → myTurn s a = false) : cmdRun a op refs legal body s = s := by
  unfold cmdRun
  split
  · rfl
  · rename_i c hc
    by_cases ho : c.opcode = op <;> simp_all

end Sys2Proof.Machine
end

