-- ==== Sys2Proof/Laws/Paths.lean ====
section
/-! SUPPORT. What a packet that crosses the fabric within its sender's command can do: the switches' turns, the planes' byte counts, and the note that
an event is not due; where a hop fails, the retries as well. -/

namespace Sys2Proof.Machine

variable {s t u : State}

/-- `t` differs from `s` at most in the switches' turns, the planes' byte counts and what keeps an event from being due. -/
def OnlyPassed (s t : State) : Prop :=
  t = { s with net := { s.net with turns := t.net.turns, spineBytes := t.net.spineBytes }, blocked := t.blocked }

theorem OnlyPassed_refl : OnlyPassed s s := rfl

theorem OnlyPassed_trans (h : OnlyPassed s t) (g : OnlyPassed t u) : OnlyPassed s u := by
  unfold OnlyPassed at *; rw [g, h]

theorem OnlyPassed_forEach {α : Type} {f : State → α → State} (h : ∀ s x, OnlyPassed s (f s x)) (xs : List α) : OnlyPassed s (forEach xs f s) := by
  induction xs generalizing s with
  | nil => exact OnlyPassed_refl
  | cons x xs ih => exact OnlyPassed_trans (h s x) ih

theorem OnlyPassed_passOut (p : Pkt) : OnlyPassed s (passOut p s) := by
  unfold passOut; split <;> rfl

theorem OnlyPassed_countPlane (n i : Nat) : OnlyPassed s (countPlane n i s) := rfl

theorem OnlyPassed_block (w : Wait) : OnlyPassed s (block w s) := rfl

/-- What is left alone. -/
theorem OnlyPassed_fields (h : OnlyPassed s t) : t.cores = s.cores ∧ t.clusters = s.clusters ∧ t.mem = s.mem ∧ t.stks = s.stks ∧
    t.parts = s.parts ∧ t.aps = s.aps ∧ t.links = s.links ∧ t.net.pkts = s.net.pkts ∧ t.net.hard = s.net.hard ∧ t.net.nextId = s.net.nextId := by
  unfold OnlyPassed at h; rw [h]; exact ⟨rfl, rfl, rfl, rfl, rfl, rfl, rfl, rfl, rfl, rfl⟩

/-- With no hard fault a packet crosses, unless the region that it goes to has stopped. -/
theorem crossWay_clear (k : PktKind) (a d : Endpoint) (n : Nat) (h : s.net.hard = []) :
    OnlyPassed s (crossWay k a d n s).1 ∧ (crossWay k a d n s).2 = !regionDead s d := by
  have e : ∀ hs : List Hop, hs.findIdx s.net.hard.contains = hs.length := by
    intro hs; rw [h]; exact List.findIdx_eq_length.2 (by intro x _; rfl)
  unfold crossWay
  simp only [e, List.getElem?_eq_none (Nat.le_refl _)]
  refine ⟨OnlyPassed_trans ?_ (OnlyPassed_forEach (fun s p => OnlyPassed_passOut p) _), trivial⟩
  split
  · exact OnlyPassed_refl
  · exact OnlyPassed_forEach (fun s i => OnlyPassed_countPlane n i) _

/-- The same for a packet that crosses within its sender's command. -/
theorem crossNow_clear (k : PktKind) (a d : Endpoint) (n : Nat) (h : s.net.hard = []) :
    OnlyPassed s (crossNow k a d n s).1 ∧ (crossNow k a d n s).2 = !regionDead s d := by
  obtain ⟨h1, h2⟩ := crossWay_clear k a d n h
  unfold crossNow
  dsimp only
  split
  · exact ⟨h1, h2⟩
  · exact ⟨OnlyPassed_trans h1 (OnlyPassed_block .turn), h2⟩

/-- A request whose ends' regions run is delivered and answered. -/
theorem overFabric_clear (k b : PktKind) (a d : Endpoint) (addr n : Nat) (f : State → State × FabStatus × Nat) (h : s.net.hard = [])
    (hd : regionDead s d = false) (hf : ∀ u, OnlyPassed s u → (f u).1.net.hard = [] ∧ regionDead (f u).1 a = false) :
    ∃ u, OnlyPassed s u ∧ (overFabric k a d b addr n f s).2 = (f u).2 ∧ OnlyPassed (f u).1 (overFabric k a d b addr n f s).1 := by
  have x := crossNow_clear k a d (if k = .readReq then 0 else n) h
  have g := hf _ x.1
  have y := crossNow_clear b d a (if b = .readResp then n else 0) g.1
  refine ⟨_, x.1, ?_, ?_⟩ <;> unfold overFabric <;> simp only [x.2, hd, y.2, g.2, Bool.not_false, Bool.not_true, if_true, Bool.false_eq_true, if_false]
  exact y.1

/-- Memory read by an I/O port over a fabric without a fault, in one packet: the bytes that stand there. -/
theorem farLoad_clear {src : Endpoint} {rq pa n l : Nat} (hg : granules [(pa, n)] = [(pa, n)]) (hl : paLoc s pa = some l) (hh : s.net.hard = [])
    (hd : regionDead s (.column (locDc l)) = false) (hm : ∀ u, OnlyPassed s u → (readAtPort src l n rq u).2.1 = .commit ∧
      memBytes (readAtPort src l n rq u).1.mem.bytes l n = memBytes s.mem.bytes l n ∧ (readAtPort src l n rq u).1.net.hard = [] ∧
      regionDead (readAtPort src l n rq u).1 src = false) :
    (farLoad src rq [(pa, n)] s).2 = (none, memBytes s.mem.bytes l n) := by
  obtain ⟨u, o, e, f⟩ := overFabric_clear .readReq .readResp src (.column (locDc l)) pa n (readAtPort src l n rq) hh hd
    fun u o => ⟨(hm u o).2.2.1, (hm u o).2.2.2⟩
  unfold farLoad
  rw [hg]
  simp only [farGranules, hl, e, (hm u o).1, if_true, List.append_nil, (OnlyPassed_fields f).2.2.1, (hm u o).2.1]

end Sys2Proof.Machine
end

