-- ==== Sys2Proof/WellFormed.lean ====
section
/-! DEFINITION. When a command is well formed: each operand that names a unit names one that the largest variant has (R2, R22). A meaning
answers every command, and one that names a unit the part lacks changes nothing or answers as its rule says. -/

namespace Sys2Proof

/-- A compute die, or its stack (R3). -/
def dieOk (d : Nat) : Bool := decide (d < 6)
/-- A stack (R3). -/
def stackOk (k : Nat) : Bool := decide (k < 6)
/-- A cluster by die × 256 + cluster (R22). -/
def cluOk (dc : Nat) : Bool := decide (dc / 256 < 6) && decide (dc % 256 < 192)
/-- A logical core index (R22). -/
def coreOk (lci : Nat) : Bool := cluOk (lci / 1024)
/-- A stream sequencer of a cluster (R21). -/
def seqOk (n : Nat) : Bool := decide (n < 4)
/-- A memory die of a stack (R2). -/
def mdieOk (d : Nat) : Bool := decide (d < 4)
/-- A column of a stack, one per cluster (R24). -/
def colOk (c : Nat) : Bool := decide (c < 192)
/-- A bank of a column on a memory die (R192). -/
def bankOk (b : Nat) : Bool := decide (b < 16)
/-- An aperture (R284). -/
def apOk (a : Nat) : Bool := decide (a < 16)
/-- A partition (R281, R311). -/
def partOk (q : Nat) : Bool := decide (q < 6)
/-- A Rorek Link port (R2). -/
def portOk (k : Nat) : Bool := decide (k < 6)
/-- A VCORE supply region by die × 4 + region (R21). -/
def rgnOk (r : Nat) : Bool := decide (r < 24)
/-- A thermal site of a stack (R385). -/
def siteOk (n : Nat) : Bool := decide (n < 48)
/-- A physical lane of one direction (R328). -/
def laneOk (l : Nat) : Bool := decide (l < 52)
/-- A list of entries by physical lane. -/
def lanesOk {α : Type} (xs : List (Nat × α)) : Bool := xs.all fun x => laneOk x.1
/-- The channel errors of a lane's codewords (R331): places 0 to 575, differences of ten bits. -/
def noiseOk (xs : List (Nat × List (Nat × Nat))) : Bool :=
  lanesOk xs && xs.all fun x => x.2.all fun e => decide (e.1 < 576) && decide (e.2 < 1024)
/-- Tests of physical lanes (R334). -/
def testsOk (ts : List LaneTest) : Bool := ts.all fun t => laneOk t.lane
/-- A switch with reduction adders (R170). -/
def switchOk : SwitchName → Bool
  | .leaf dc => cluOk dc
  | .dieSpine d p => dieOk d && decide (p < 16)
  | .pkgSpine p => decide (p < 16)
/-- A translation unit (R193). -/
def unitOk : UnitName → Bool
  | .cluster dc => cluOk dc
  | .leadIo => true
  | .portDie k => decide (k < 3)
/-- A rail (R359). -/
def railOk : Rail → Bool
  | .vcore d r => dieOk d && decide (r < 4)
  | .vtarn k | .vmem k | .vpp k => stackOk k
  | .vio k => decide (k < 4)
  | .serdes d k => decide (d < 3) && decide (k < 2)

/-- Whether every operand of a command names something that the largest variant has. -/
def Instr.wf : Instr → Bool
  | .seqFetch dc seq => cluOk dc && seqOk seq
  | .seqIssue dc seq => cluOk dc && seqOk seq
  | .nop lci => coreOk lci
  | .endOp lci => coreOk lci
  | .lpb lci => coreOk lci
  | .lpe lci => coreOk lci
  | .prd lci => coreOk lci
  | .trp lci => coreOk lci
  | .opa lci => coreOk lci
  | .acz lci => coreOk lci
  | .acs lci => coreOk lci
  | .acd lci => coreOk lci
  | .qnt lci => coreOk lci
  | .scl lci => coreOk lci
  | .vop lci => coreOk lci
  | .vred lci => coreOk lci
  | .asm lci => coreOk lci
  | .rst lci => coreOk lci
  | .rld lci => coreOk lci
  | .vld lci => coreOk lci
  | .vst lci => coreOk lci
  | .fil lci => coreOk lci
  | .cpy lci => coreOk lci
  | .put lci => coreOk lci
  | .rput lci => coreOk lci
  | .get lci => coreOk lci
  | .wop lci => coreOk lci
  | .wcl lci => coreOk lci
  | .wclComplete lci => coreOk lci
  | .bar lci => coreOk lci
  | .barrierArrive lci => coreOk lci
  | .barrierRelease _ => true
  | .sig lci => coreOk lci
  | .sigDeliver lci _ => coreOk lci
  | .wfl lci => coreOk lci
  | .wflSatisfied lci => coreOk lci
  | .wflTimeout lci => coreOk lci
  | .spq lci => coreOk lci
  | .macroOpComplete lci _ => coreOk lci
  | .coreEndComplete lci => coreOk lci
  | .trapReached dc seq _ => cluOk dc && seqOk seq
  | .writePacketArrive _ => true
  | .packetCommit lci _ => coreOk lci
  | .remoteReadArrive _ _ => true
  | .reductionPacketArrive _ => true
  | .reductionCombine sw _ _ => switchOk sw
  | .fabricAnswer _ => true
  | .readResponseArrive _ => true
  | .fabricHopReceive _ _ => true
  | .verticalPacketReceive lci _ => coreOk lci
  | .broadcastVldStart dc seq => cluOk dc && seqOk seq
  | .memoryWriteArrive _ => true
  | .memoryReadArrive _ _ _ => true
  | .fillEntryWait _ => true
  | .dramFillComplete _ => true
  | .correctedWriteback _ => true
  | .patrolScrubRead stack die _ => stackOk stack && decide (die ≤ 4)
  | .refreshDue stack mdie column bank => stackOk stack && mdieOk mdie && colOk column && bankOk bank
  | .dieRefHotClear stack mdie => stackOk stack && mdieOk mdie
  | .springQueueAccept dc _ => cluOk dc
  | .springPermitGrant dc mdie => cluOk dc && mdieOk mdie
  | .springStepResume dc mdie => cluOk dc && mdieOk mdie
  | .springStepEnd dc mdie => cluOk dc && mdieOk mdie
  | .sprSubmit dc _ => cluOk dc
  | .sprCtrlAbort dc => cluOk dc
  | .cluDmaStart dc => cluOk dc
  | .cluDmaStop dc _ => cluOk dc
  | .dmaFlagWaitSatisfied dc => cluOk dc
  | .dmaIterationComplete dc => cluOk dc
  | .translationWalkComplete _ => true
  | .cluXlatRootWrite dc _ => cluOk dc
  | .cluXlatInvAll dc => cluOk dc
  | .cluXlatInvPage dc _ => cluOk dc
  | .xlatInvComplete unit => unitOk unit
  | .kvwConfigWrite dc _ _ => cluOk dc
  | .kvWalkComplete _ => true
  | .cluSpmPwrWrite dc _ => cluOk dc
  | .spmPowerChangeComplete dc => cluOk dc
  | .coreBindWrite lci _ => coreOk lci
  | .stkMemCfgWrite stack _ => stackOk stack
  | .memLogCtrlClr stack => stackOk stack
  | .registerWrite _ _ bytes => decide (bytes ≠ [])
  | .apertureWrite off _ => decide (off < 0x1_0000_0000)
  | .packetTake ap => apOk ap
  | .replyRecordWrite ap => apOk ap
  | .eventRecordWrite ap => apOk ap
  | .msixInterrupt x => apOk x.ap
  | .apRingHeadWrite ap _ => apOk ap
  | .apCtrlEn ap _ => apOk ap
  | .apCtrlAbandon ap => apOk ap
  | .functionLevelReset => true
  | .pcieFundamentalReset => true
  | .pcieD3hotEnter => true
  | .pcieD0Return => true
  | .identity ap => apOk ap
  | .status ap => apOk ap
  | .attest ap => apOk ap
  | .kex ap => apOk ap
  | .sessionEnd ap => apOk ap
  | .logRead ap => apOk ap
  | .logClear ap => apOk ap
  | .telemetry ap => apOk ap
  | .fwWrite ap => apOk ap
  | .fwActivate ap => apOk ap
  | .ownerLock ap => apOk ap
  | .powerSet ap => apOk ap
  | .thermalSet ap => apOk ap
  | .devCommit ap => apOk ap
  | .partCreate ap => apOk ap
  | .partDestroy ap => apOk ap
  | .partConfig ap => apOk ap
  | .partCommit ap => apOk ap
  | .partRun ap => apOk ap
  | .partDrain ap => apOk ap
  | .partDrainComplete q => partOk q
  | .partDrainExpire q => partOk q
  | .partReset ap => apOk ap
  | .partResetDrained q => partOk q
  | .unitReset ap => apOk ap
  | .clusterResetOffEnd dc => cluOk dc
  | .dmaWrite ap => apOk ap
  | .dmaRead ap => apOk ap
  | .dmaChunk ap _ _ => apOk ap
  | .bcastWrite ap _ => apOk ap
  | .xlatLoad ap => apOk ap
  | .xlatInval ap => apOk ap
  | .regRead ap => apOk ap
  | .regWrite ap => apOk ap
  | .streamStart ap => apOk ap
  | .streamCtrl ap => apOk ap
  | .springCtrl ap => apOk ap
  | .flitReceive port flit lanes errs => portOk port && decide (flit.length = 256) && noiseOk (lanes.zip errs)
  | .replayTimeout port => portOk port
  | .linkPut port => portOk port
  | .linkGet port => portOk port
  | .linkRput port => portOk port
  | .getresp port => portOk port
  | .linkAnswer port => portOk port
  | .linkBarrier port => portOk port
  | .timesync port => portOk port
  | .timesyncSend port => portOk port
  | .hello port => portOk port
  | .cert port => portOk port
  | .keyx port => portOk port
  | .finish port => portOk port
  | .linkTrainingStart port => portOk port
  | .linkTrainStepTimeout port => portOk port
  | .readinessTestComplete port tx rx => portOk port && testsOk tx && testsOk rx
  | .laneErrorWindow port corr uncorr => portOk port && lanesOk corr && lanesOk uncorr
  | .retrain x => portOk x.port && laneOk x.lane
  | .retrainComplete port tx rx => portOk port && testsOk tx && testsOk rx.tests && lanesOk rx.marks
  | .laneMarkerLoss x => portOk x.port
  | .linkChainFlagWait port q => portOk port && partOk q
  | .linkChainIterationComplete port q => portOk port && partOk q
  | .capControlTick _ => true
  | .opVoltageSettled rgn _ => rgnOk rgn
  | .powerMeasurementWindow _ _ _ => true
  | .currentMonitorSample rgn _ => rgnOk rgn
  | .droopDetect dc permille => cluOk dc && decide (permille ≤ 1000)
  | .droopRecover dc => cluOk dc
  | .clusterTurnOnStage dc => cluOk dc
  | .turnOnWaitExpire dc => cluOk dc
  | .turnOnStretchRelease rgn => rgnOk rgn
  | .ageingSlackLow rgn => rgnOk rgn
  | .regulatorFault rail => railOk rail
  | .sensorRead stack _ => stackOk stack
  | .plausibilityCheck stack site _ _ => stackOk stack && siteOk site
  | .overtempStop stack site => stackOk stack && siteOk site
  | .thermalTrip => true
  | .thetaWindow stack _ => stackOk stack
  | .keepWarmHoldExpire stack => stackOk stack
  | .inletTemperatureWrite _ => true
  | .outletTemperatureWrite _ => true
  | .flowWrite _ => true
  | .supplyRedundancyWrite _ => true
  | .alertStatusRead => true
  | .alertDriftClear _ => true
  | .alertMaskWrite _ => true
  | .pwrgdInRise _ => true
  | .pwrgdInFall => true
  | .pkgRstNAssert => true
  | .pkgRstNRelease _ => true
  | .watchdogExpire _ => true
  | .meridianResetRequest _ => true
  | .persistentLogAppend => true
  | .clusterTurnOffStage dc => cluOk dc
  | .vauxApply => true
  | .vauxLoss => true
  | .trainingFrameLock port => portOk port
  | .equaliserAdaptationComplete port => portOk port
  | .laneAlignmentComplete x => portOk x.port && lanesOk x.marks

end Sys2Proof
end

