-- ==== Sys2Proof/Tests/Slice0.lean ====
section
/-! SUPPORT. Tests: ill-formed commands refused, single steps with values from the spec, and for every statement of Obligations.lean states
and operands that meet its hypotheses, clause by clause. -/

namespace Sys2Proof.Tests
open Sys2Proof Sys2Proof.Machine

set_option Elab.async false

/-! ### Well-formedness: each check refuses a command that names nothing -/

theorem test_wf_core : (Instr.nop 0).wf = true ∧ (Instr.nop (192 * 1024)).wf = false := by decide
theorem test_wf_die : (Instr.nop (6 * 256 * 1024)).wf = false := by decide
theorem test_wf_seq : (Instr.seqFetch 0 3).wf = true ∧ (Instr.seqFetch 0 4).wf = false := by decide
theorem test_wf_cluster : (Instr.seqFetch 191 0).wf = true ∧ (Instr.seqFetch 192 0).wf = false := by decide
theorem test_wf_stack : (Instr.memLogCtrlClr 5).wf = true ∧ (Instr.memLogCtrlClr 6).wf = false := by decide
theorem test_wf_mdie : (Instr.dieRefHotClear 0 3).wf = true ∧ (Instr.dieRefHotClear 0 4).wf = false := by decide
theorem test_wf_column_bank : (Instr.refreshDue 0 0 192 0).wf = false ∧ (Instr.refreshDue 0 0 0 16).wf = false := by decide
theorem test_wf_scrub : (Instr.patrolScrubRead 0 4 []).wf = true ∧ (Instr.patrolScrubRead 0 5 []).wf = false := by decide
theorem test_wf_aperture : (Instr.identity 15).wf = true ∧ (Instr.identity 16).wf = false := by decide
theorem test_wf_aperture_write : (Instr.apertureWrite 0x1_0000_0000 []).wf = false := by decide
theorem test_wf_register_write : (Instr.registerWrite false 0 []).wf = false := by decide
theorem test_wf_partition : (Instr.partDrainComplete 5).wf = true ∧ (Instr.partDrainComplete 6).wf = false := by decide
theorem test_wf_port : (Instr.linkPut 5).wf = true ∧ (Instr.linkPut 6).wf = false := by decide
theorem test_wf_lanes : (Instr.retrainComplete 0 [⟨52, 0, 0, 0, 0, 0⟩] ⟨[], []⟩).wf = false ∧ (Instr.retrain ⟨0, 52, 0⟩).wf = false := by decide
theorem test_wf_region : (Instr.opVoltageSettled 23 none).wf = true ∧ (Instr.opVoltageSettled 24 none).wf = false := by decide
theorem test_wf_site : (Instr.overtempStop 0 47).wf = true ∧ (Instr.overtempStop 0 48).wf = false := by decide
theorem test_wf_switch : (Instr.reductionCombine (.pkgSpine 16) 0 0).wf = false := by decide
theorem test_wf_unit : (Instr.xlatInvComplete (.portDie 3)).wf = false := by decide
theorem test_wf_rail : (Instr.regulatorFault (.vcore 0 4)).wf = false ∧ (Instr.regulatorFault (.vio 4)).wf = false := by decide

/-- The table gives its rows no bits. -/
theorem test_decode : decodeTableWord 64 0 = none := by decide

/-! ### States for the tests -/

/-- An awake device in RUNNING. -/
def up : State := { State.reset with
  side := { vaux := true, pwrgd := true, smbUp := true }
  dev := { st := .running, held := false, reachedConfig := true } }
/-- A cluster that is switched on. -/
def dcOn : Cluster := { pwr := { st := .on, stages := 4 } }
/-- A RUNNING partition 0 with stack 0 and cluster 0 switched on. -/
def busy : State := { up with clusters := [(0, dcOn)], stks := [(0, { part := some 0 })], parts := [(0, { st := .running })] }
/-- A macro-op word: opcode, PG, DA, DB, DC, SUB, IMM (R102). -/
def mw (o pg a b c sub imm : Nat) : W64 :=
  BitVec.ofNat 64 (o * 2 ^ 56 + pg * 2 ^ 55 + a * 2 ^ 50 + b * 2 ^ 45 + c * 2 ^ 40 + sub * 2 ^ 32 + imm)
/-- A descriptor: space, format, base, row stride in 16 bytes, EXT0, EXT1 (R99). -/
def ds (sp f base st e0 e1 : Nat) : BitVec 128 :=
  BitVec.ofNat 128 (base + sp * 2 ^ 48 + f * 2 ^ 56 + st * 2 ^ 64 + e0 * 2 ^ 100 + e1 * 2 ^ 114)
/-- A RUNNING core whose queue holds one macro-op. -/
def front (w : W64) (d : List (BitVec 128)) : Core :=
  { st := .running, queue := [⟨w, 0x100⟩], desc := (List.range d.length).zip d }
/-- Core 0 of cluster 0 in a RUNNING partition. -/
def with0 (k : Core) : State := { busy with cores := [(0, k)] }

/-! ### The whole device -/

theorem test_hyp_step : ({ up with pending := [.alertStatusRead] } : State).pending = .alertStatusRead :: [] ∧ up.pending = [] := by decide
theorem test_step_fitted : Fitted up := by unfold Fitted; decide
theorem test_hyp_asleep : awake State.reset = false ∧ pinCommand (.nop 0) = false ∧ awake up = true := by decide
theorem test_hyp_memory : Memory.wf up.mem.bytes = true ∧ step up = .next (tick up) := ⟨rfl, rfl⟩
theorem test_hyp_trip : ({ up with side := { up.side with thermTrip := true } } : State).side.thermTrip = true ∧
    resetCommand .thermalTrip = false ∧ (∀ a, Instr.thermalTrip ≠ .ownerLock a) := by
  refine ⟨rfl, rfl, ?_⟩; intro a h; cases h
theorem test_hyp_groups : upkeepCommand .alertStatusRead = true ∧ deviceCommand (.status 0) = true ∧ portCommand (.retrain ⟨0, 0, 0⟩) = true := by decide

/-! ### Macro-ops -/

/-- One word of each inner macro-op with descriptors that R101 accepts. -/
def innerCases : List ((Nat → Instr) × W64 × List (BitVec 128) × UnitKind) :=
  [(.opa, mw ocOpa 0 0 1 0 0 0, [ds 0 1 0 16 32 16, ds 1 1 0 16 32 16], .engine),
   (.acz, mw ocAcz 0 0 0 0 1 0, [], .engine), (.acs, mw ocAcs 0 0 0 0 0 0, [], .engine),
   (.acd, mw ocAcd 0 0 0 0 0 0, [ds 2 8 0 4 16 16], .engine),
   (.qnt, mw ocQnt 0 0 1 2 0xA 0, [ds 2 8 0 4 16 16, ds 2 8 0x400 4 16 16, ds 2 1 0x800 4 32 16], .engine),
   (.scl, mw ocScl 0 0 0 0 2 0x40, [], .engine),
   (.vop, mw ocVop 0 0 1 2 0 0, [ds 0 8 0 4 16 1, ds 1 8 0 4 16 1, ds 2 8 0 4 16 1], .vector),
   (.vred, mw ocVred 0 0 0 1 0 0, [ds 0 8 0 4 16 1, ds 1 8 0 4 16 1], .vector),
   (.asm, mw ocAsm 0 0 1 2 0 0, [ds 0 8 0 4 16 16, ds 2 8 0 4 16 16, ds 1 8 0 4 16 16], .vector),
   (.rst, mw ocRst 0 0 0 1 0 0, [ds 2 8 0 4 16 16, ds 1 8 0 4 16 1], .vector),
   (.rld, mw ocRld 0 0 0 1 0 0, [ds 1 8 0 4 16 1, ds 2 8 0 4 16 16], .vector),
   (.fil, mw ocFil 0 0 0 0 0 5, [ds 0 8 0 4 16 1], .memory),
   (.cpy, mw ocCpy 0 0 0 1 0 5, [ds 0 8 0 4 16 1, ds 1 8 0 4 16 1], .memory)]

/-- The same for the outer macro-ops; the last is a VLD in broadcast form. -/
def outerCases : List ((Nat → Instr) × W64 × List (BitVec 128) × UnitKind) :=
  [(.vld, mw ocVld 0 0 0 1 0 0, [ds 4 8 0x10000 4 16 1, ds 0 8 0 4 16 1], .memory),
   (.vst, mw ocVst 0 0 0 1 0 0, [ds 0 8 0 4 16 1, ds 4 8 0x10000 4 16 1], .memory),
   (.put, mw ocPut 0 0 0 1 1 3, [ds 0 8 0 4 16 1, ds 3 8 0x8000 4 16 1], .memory),
   (.rput, mw ocRput 0 0 0 1 0 3, [ds 0 8 0 4 16 1, ds 3 8 0xE000 4 16 1], .memory),
   (.get, mw ocGet 0 0 0 1 0 3, [ds 3 8 0x8000 4 16 1, ds 0 8 0 4 16 1], .memory),
   (.spq, mw ocSpq 0 0 0 1 0 3, [ds 0 0 0 4 128 1], .memory),
   (.vld, mw ocVld 0 0 0 1 2 0, [ds 4 8 0x10000 4 16 1, ds 1 8 0 4 16 1], .memory)]

/-- Every inner macro-op is accepted somewhere, with its units empty. -/
theorem test_hyp_inner : ∀ x ∈ innerCases, Poised (with0 (front x.2.1 x.2.2.1)) 0 (mwOp x.2.1) ⟨x.2.1, 0x100⟩ ∧
    Accepted (with0 (front x.2.1 x.2.2.1)) 0 ⟨x.2.1, 0x100⟩ ∧ (getCore (with0 (front x.2.1 x.2.2.1)) 0).ops = [] ∧
    (getCore (with0 (front x.2.1 x.2.2.1)) 0).spmFlips = [] := by unfold Poised Accepted; decide
theorem test_hyp_inner_list : innerCases.map (fun x => (mwOp x.2.1, x.2.2.2)) = innerOps.map (·.2) := by decide
theorem test_hyp_outer : ∀ x ∈ outerCases, Poised (with0 (front x.2.1 x.2.2.1)) 0 (mwOp x.2.1) ⟨x.2.1, 0x100⟩ ∧
    Accepted (with0 (front x.2.1 x.2.2.1)) 0 ⟨x.2.1, 0x100⟩ := by unfold Poised Accepted; decide
/-- A macro-op with PG on a core whose predicate is 0, and one that R101 refuses: an ACD of BF16. -/
theorem test_hyp_predicate : ∀ o ∈ [ocOpa, ocPut, ocNop, ocWfl], Poised (with0 { front (mw o 1 0 0 0 0 0) [] with pred := false }) 0 o ⟨mw o 1 0 0 0 0 0, 0x100⟩ ∧
    Steady (with0 { front (mw o 1 0 0 0 0 0) [] with pred := false }) 0 ∧ mwPg (mw o 1 0 0 0 0 0) = true := by unfold Poised Steady; decide
theorem test_hyp_refusal : refusal (with0 (front (mw ocAcd 0 0 0 0 0 0) [ds 2 7 0 4 16 16])) 0
    (coreArgs (front (mw ocAcd 0 0 0 0 0 0) [ds 2 7 0 4 16 16]) (mw ocAcd 0 0 0 0 0 0)) = some fcFormat := by decide
theorem test_hyp_control : ∀ o ∈ [ocNop, ocEnd, ocBar, ocWfl, ocPrd, ocLpb, ocTrp], Poised (with0 (front (mw o 0 0 0 0 0 0x101) [])) 0 o ⟨mw o 0 0 0 0 0 0x101, 0x100⟩ ∧
    Steady (with0 (front (mw o 0 0 0 0 0 0x101) [])) 0 ∧ Accepted (with0 (front (mw o 0 0 0 0 0 0x101) [])) 0 ⟨mw o 0 0 0 0 0 0x101, 0x100⟩ := by
  unfold Poised Steady Accepted; decide

theorem test_hyp_prd : Poised (with0 (front (mw ocPrd 0 0 0 0 6 0) [])) 0 ocPrd ⟨mw ocPrd 0 0 0 0 6 0, 0x100⟩ ∧
    pgSkips (front (mw ocPrd 0 0 0 0 6 0) []) (mw ocPrd 0 0 0 0 6 0) = false ∧ mwSub (mw ocPrd 0 0 0 0 6 0) % 8 = 6 ∧
    (getCore (with0 (front (mw ocPrd 0 0 0 0 6 0) [])) 0).flt = false ∧
    ∀ u ∈ [0, 1, 2, 3, 4, 5], mwSub (mw ocPrd 0 0 0 0 u 0) % 8 = u := by unfold Poised; decide

/-- R206: a lost word of a valid store makes its 64 granules read as written. -/
theorem test_store_lost : (storeFail (tarnBase + 0x8200) State.reset).mem.tarnValid = (List.range 64).map (tarnBase / 512 + 64 + ·) := by decide

/-! ### Transfers, completions, windows, barriers -/

/-- A macro-op in a unit, started. -/
def mop (w : W64) (da dc : Region) : MOp :=
  { id := 7, word := w, addr := 0x100, kind := .memory, started := true, formed := false, rd := [], wr := [], tw := [], da := da, db := {}
    dc := dc, xl := [], todo := [], waits := [] }
/-- 64 bytes of FP32 at `b` of space `sp`. -/
def line (sp b : Nat) : Region := { space := sp, base := b, fmt := 8, stride0 := 4, stride1 := 64, ext0 := 16, ext1 := 1 }
/-- A cluster with page 1 of partition 0 at byte 0x10000 of its own slice. -/
def dcX (w : Bool) : Cluster := { dcOn with
  xlatEn := true, xlat := { tlb := [⟨0, 0x10000, 0x10000, paTarn + 0x10000, w, false, false⟩] } }
/-- A RUNNING core with one macro-op in a unit. -/
def unitOf (p : MOp) : Core := { st := .running, ops := [p], nextOp := 8 }
def xOf (w : Bool) (p : MOp) : State := { with0 (unitOf p) with clusters := [(0, dcX w)] }
def vldOp : MOp := mop (mw ocVld 0 0 0 0 0 0) (line 4 0x10000) (line 0 0)
def vstOp : MOp := mop (mw ocVst 0 0 0 0 0 0) (line 0 0) (line 4 0x10000)
def putOp : MOp := mop (mw ocPut 0 0 0 0 0 0) (line 0 0) (line 3 0x8000)

theorem test_hyp_transfer_near : findOp (getCore (xOf true putOp) 0) 7 = some putOp ∧ putOp.id = 7 ∧ putOp.started = true ∧
    putOp.formed = false ∧ putOp.xl = [] ∧ farPages putOp = [] := by decide
theorem test_hyp_transfer_hit : ∀ p ∈ [vldOp, vstOp], farPages p = [1] ∧
    (xlLook (.cluster (lciDc 0)) (lciPart (xOf true p) 0) (1 * 0x10000) (xOf true p)).2 =
      .hit ⟨0, 0x10000, 0x10000, paTarn + 0x10000, true, false, false⟩ ∧
    inOwnTarn (xOf true p) (lciDc 0) (paTarn + 0x10000) = true := by decide
theorem test_hyp_transfer_readonly : farWrite (mwOp vstOp.word) = true ∧
    (xlLook (.cluster (lciDc 0)) (lciPart (xOf false vstOp) 0) (1 * 0x10000) (xOf false vstOp)).2 =
      .hit ⟨0, 0x10000, 0x10000, paTarn + 0x10000, false, false, false⟩ := by decide
theorem test_hyp_transfer_off : (xlLook (.cluster (lciDc 0)) (lciPart (with0 (unitOf vldOp)) 0) (1 * 0x10000) (with0 (unitOf vldOp))).2 = .off := by
  decide
theorem test_hyp_piece : endpointOf (xOf true putOp) (spmPa 5 0) = some (.core 5) ∧ mwOp putOp.word = ocPut ∧
    mwOp (mw ocRput 0 0 0 0 0 0) = ocRput ∧ mwOp (mw ocGet 0 0 0 0 0 0) = ocGet := by decide

/-- A macro-op of its unit that waits for nothing. -/
def doneOp : MOp := { mop (mw ocFil 0 0 0 0 0 0) {} {} with formed := true }
theorem test_hyp_complete : findOp (getCore (with0 (unitOf doneOp)) 0) 7 = some doneOp ∧ doneOp.formed = true ∧ doneOp.todo = [] ∧ doneOp.waits = [] ∧
    (getCore (with0 (unitOf doneOp)) 0).ops = [doneOp] ∧ Steady (with0 (unitOf doneOp)) 0 ∧ (unitOf doneOp).hold = none ∧
    (getClu (with0 (unitOf doneOp)) (lciDc 0)).pwr.st = .on ∧ awake (with0 (unitOf doneOp)) = true := by unfold Steady; decide
theorem test_hyp_complete_trap : (getCore (with0 { unitOf doneOp with hold := some (.trp 5 0x100 true) }) 0).hold = some (.trp 5 0x100 true) ∧
    (getCore (with0 { unitOf doneOp with hold := some (.trp 5 0x100 true) }) 0).st = .running := by decide
/-- A core at its END, bound to sequencer 0, which has issued END. -/
def ending : State := { with0 { st := .running, bindEn := true, hold := some .endOp } with
  clusters := [(0, { dcOn with seqs := [(0, { st := .running, ended := true })] })] }
theorem test_hyp_end : awake ending = true ∧ (getCore ending 0).st = .running ∧ (getClu ending (lciDc 0)).pwr.st = .on ∧
    (getCore ending 0).hold = some .endOp ∧ (getCore ending 0).ops = [] ∧ (getCore ending 0).out = [] ∧ (getSeq ending 0 0).st = .running ∧
    (getSeq ending 0 0).ended = true ∧ boundCores ending 0 0 = [0] := by decide
/-- A stream whose core has reached its TRP. -/
def trapping (code : Nat) : State := { with0 { st := .trapped, bindEn := true, hold := some (.trp code 0x108 true) } with
  clusters := [(0, { dcOn with seqs := [(0, { st := .running, start := 0x100, limit := 0x200, pc := 0x110, trp := some (code, 0x108) })] })]
  parts := [(0, { st := .running, rots := [3] })] }
theorem test_hyp_trap_reached : ∀ code ∈ [0xC000, 0xC001, 0xC0FF, 0xC100], awake (trapping code) = true ∧
    (getSeq (trapping code) 0 0).st = .running ∧ (getSeq (trapping code) 0 0).trp = some (code, 0x108) ∧ allAtTrp (trapping code) 0 0 = true ∧
    dcPart (trapping code) 0 = some 0 ∧ (getPart (trapping code) 0).rots[(getSeq (trapping code) 0 0).rotIdx]? = some 3 := by decide

/-- A core that waits for the close of window 1, with or without a packet in it. -/
def closing (hs : List HeldPkt) : State := with0 { st := .running, hold := some (.wcl 1), held := hs }
def heldPkt : HeldPkt := ⟨3, [1], 0x40, [some 1, none], none, none⟩
theorem test_hyp_wcl : (∀ h ∈ (getCore (closing []) 0).held, 1 ∉ h.wins) ∧ Steady (closing []) 0 ∧ awake (closing []) = true ∧
    (getCore (closing []) 0).hold = some (.wcl 1) ∧ (∃ h ∈ (getCore (closing [heldPkt]) 0).held, 1 ∈ h.wins) := by unfold Steady; decide
def sigTo (g : Nat) : SigReq := ⟨g, 2, [], [], false, ocSig, 0, 0x100⟩
/-- A core with one signal to send to core `g`, whose flag 2 stands at `v`. -/
def signalling (g : Nat) (v : W16) : State := { busy with
  cores := [(0, { st := .running, sigs := [sigTo g] }), (1, { flags := [(2, v)] })] }
theorem test_hyp_sig : (∀ v ∈ [0xFFFE, 0xFFFF], awake (signalling 1 (BitVec.ofNat 16 v)) = true ∧
      (getCore (signalling 1 (BitVec.ofNat 16 v)) 0).sigs[0]? = some (sigTo 1) ∧
      sigReady (getCore (signalling 1 (BitVec.ofNat 16 v)) 0) (sigTo 1) = true ∧
      (getClu (signalling 1 (BitVec.ofNat 16 v)) (lciDc 1)).pwr.st = .on ∧
      smapGet 0 (getCore (signalling 1 (BitVec.ofNat 16 v)) 1).flags 2 = BitVec.ofNat 16 v) ∧
    (getClu (signalling 1024 0) (lciDc 1024)).pwr.st ≠ .on := by decide
/-- A core that waits for flag 2 to reach 3. -/
def waiting (v tmo : Nat) : State := with0 { st := .running, hold := some (.wfl 2 3 tmo 0x100), flags := [(2, BitVec.ofNat 16 v)] }
theorem test_hyp_wfl : (∀ v ∈ [2, 3], awake (waiting v 1) = true ∧ (getCore (waiting v 1) 0).hold = some (.wfl 2 3 1 0x100) ∧
      (getClu (waiting v 1) (lciDc 0)).pwr.st = .on ∧ Steady (waiting v 1) 0 ∧ (getCore (waiting v 1) 0).flt = false) ∧
    3 ≤ (smapGet 0 (getCore (waiting 3 1) 0).flags 2).toNat ∧ (smapGet 0 (getCore (waiting 2 1) 0).flags 2).toNat < 3 := by
  unfold Steady; decide

/-- Cores 0 and 1 at a barrier of their cluster; core 1 has arrived where `bs` says so. -/
def atBar (bs : List Barrier) : State := { busy with bars := bs, nextBar := 9
                                                     cores := [(0, { st := .running, bindEn := true, hold := some (.bar 0 15 0) }),
                                                       (1, { st := .running, bindEn := true, hold := some (.arrived 8) })] }
def bar8 (arr : List Nat) : Barrier := ⟨8, 0, barPlace (atBar []) 0 0, 15, [0, 1], arr, 0⟩
theorem test_hyp_arrive : (∀ bs ∈ [[], [bar8 [1]]], awake (atBar bs) = true ∧ (getCore (atBar bs) 0).hold = some (.bar 0 15 0) ∧
      writesPending (getCore (atBar bs) 0) = false ∧ (getCore (atBar bs) 0).sigs = [] ∧ (getClu (atBar bs) (lciDc 0)).pwr.st = .on) ∧
    ((atBar [bar8 [1]]).bars.find? fun b => b.scope == 0 && b.place == barPlace (atBar [bar8 [1]]) 0 0 && b.mask == 15 &&
      !b.arrived.contains 0 && b.parts.contains 0) = some (bar8 [1]) := by decide
/-- Both have arrived. -/
def arrivedBoth : State := { atBar [bar8 [0, 1]] with
  cores := [(0, { st := .running, bindEn := true, hold := some (.arrived 8) }), (1, { st := .running, bindEn := true, hold := some (.arrived 8) })] }
theorem test_hyp_release : ((arrivedBoth.bars.find? fun b => b.id == 8) = some (bar8 [0, 1]) ∧
      (∀ c ∈ (bar8 [0, 1]).parts, barCounts arrivedBoth (bar8 [0, 1]) c = true) ∧ (getCore arrivedBoth 1).hold = some (.arrived 8)) ∧
    ∃ c ∈ (bar8 [1]).parts, barCounts (atBar [bar8 [1]]) (bar8 [1]) c = false := by decide

/-! ### Sequencers -/

/-- Sequencer 0 RUNNING at `pc`, its buffer holding `buf`; core 0 is bound to it. -/
def stream (pc : Nat) (buf : Option (Nat × List Byte)) (ls : List SeqLoop) (q : Nat) : State := { busy with
  cores := [(0, { st := .running, bindEn := true, queue := List.replicate q ⟨0, 0⟩ })]
  clusters := [(0, { dcX true with seqs := [(0, { st := .running, start := 0x10000, limit := 0x10040, pc := pc, buf := buf, loops := ls })] })] }
/-- A 64-byte unit whose first macro-op is `w`. -/
def unit64 (w : W64) : Option (Nat × List Byte) := some (0x10000, leBytes 8 w.toNat ++ List.replicate 56 0)
theorem test_hyp_fetch : (∀ pc ∈ [0x10000, 0x10040], awake (stream pc none [] 0) = true ∧ seqActive (getSeq (stream pc none [] 0) 0 0) = true ∧
      bufHolds (getSeq (stream pc none [] 0) 0 0) = false) ∧
    (xlLook (.cluster 0) (dcPart (stream 0x10000 none [] 0) 0) (0x10000 / 64 * 64) (stream 0x10000 none [] 0)).2 =
      .hit ⟨0, 0x10000, 0x10000, paTarn + 0x10000, true, false, false⟩ ∧
    inOwnTarn (stream 0x10000 none [] 0) 0 (paTarn + 0x10000) = true ∧ paLoc (stream 0x10000 none [] 0) (paTarn + 0x10000) = some (tarnLoc 0 0x10000) ∧
    (memLoad (tarnLoc 0 0x10000) 64 2 (stream 0x10000 none [] 0)).2.1 = none := by decide
/-- NOP, LPB of two iterations, LPE, END, TRP and an opcode that is not defined, with SUB and IMM. -/
def issueWords : List (Nat × Nat × Nat) := [(ocNop, 0, 0), (ocLpb, 2, 0), (ocLpe, 0, 0), (ocEnd, 0, 0), (ocTrp, 0, 5), (5, 0, 0)]
def issueAt (w : Nat × Nat × Nat) (q : Nat) : State :=
  stream 0x10000 (unit64 (mw w.1 0 0 0 w.2.1 0 w.2.2)) (if w.1 = ocLpe then [⟨0x10000, 2⟩] else []) q
theorem test_hyp_issue : ∀ w ∈ issueWords, awake (issueAt w 0) = true ∧ seqActive (getSeq (issueAt w 0) 0 0) = true ∧
    bufHolds (getSeq (issueAt w 0) 0 0) = true ∧ (getSeq (issueAt w 0) 0 0).skip = 0 ∧
    seqWord (getSeq (issueAt w 0) 0 0) = mw w.1 0 0 0 w.2.1 0 w.2.2 ∧
    queuesFree (issueAt w 31) 0 0 = true ∧ queuesFree (issueAt w 32) 0 0 = false := by decide
theorem test_hyp_issue_kinds : (issueWords.map fun w => decide (mwOp (mw w.1 0 0 0 w.2.1 0 w.2.2) ∈ definedOps)) =
      [true, true, true, true, true, false] ∧
    mwCount (mw ocLpb 0 0 0 2 0 0) = 2 ∧ (getSeq (issueAt (ocLpe, 0, 0) 0) 0 0).loops = [⟨0x10000, 2⟩] ∧
    (getSeq (issueAt (ocEnd, 0, 0) 0) 0 0).loops = [] := by decide

/-! ### Packets -/

/-- A packet to core 0 at window offset `off`, with one byte masked out. -/
def pkt (kind : PktKind) (src : Endpoint) (off n : Nat) : Pkt :=
  { blankPkt kind src (.core 0) 1 (some 0) with id := 3, addr := spmPa 0 off, data := List.replicate (n - 1) (some 1) ++ [none], fmt := 8, len := n }
def netOf (ps : List Pkt) : Net := { pkts := ps, nextId := 9 }
/-- Core 0 with window 1 over bytes 0x40 to 0x7F. -/
def owner (w : Win) : Core := { st := .running, wins := [(1, { w with base := 0x40, last := 0x7F })] }
def atOwner (w : Win) (p : Pkt) : State := { with0 (owner w) with net := netOf [p] }
def wPkt (n : Nat) : Pkt := pkt .write (.core 1) 0x40 n
def rPkt (n : Nat) : Pkt := pkt .reduction (.core 1) 0x40 n
/-- The windows that admit, and the closed window that counts. -/
def admits (s : State) (off n sc : Nat) : List Nat := (List.range 4).filter fun w =>
  (getWin (getCore s 0) w).isOpen && winHolds (getWin (getCore s 0) w) off n && decide (sc ≤ (getWin (getCore s 0) w).scope)
def counts (s : State) (off n : Nat) : Option Nat := (List.range 4).find? fun w =>
  ((getWin (getCore s 0) w).held || (getWin (getCore s 0) w).closing) && winHolds (getWin (getCore s 0) w) off n

theorem test_hyp_checkpoint : (∀ p ∈ [wPkt 64, rPkt 64], awake (atOwner { isOpen := true } p) = true ∧
      atCore (atOwner { isOpen := true } p) 3 p.kind = some (0, p) ∧ (getClu (atOwner { isOpen := true } p) (lciDc 0)).pwr.st = .on ∧
      max p.scope (writerScope p.src 0) = 0 ∧ p.addr % 32768 = 0x40 ∧ p.data.length = 64 ∧
      linesDown (atOwner { isOpen := true } p) 0 (linesOf 0x40 64) = false ∧ admits (atOwner { isOpen := true } p) 0x40 64 0 = [1] ∧
      admits (atOwner { held := true } p) 0x40 64 0 = [] ∧ counts (atOwner { held := true } p) 0x40 64 = some 1) ∧
    (admits (atOwner { isOpen := true } (wPkt 65)) 0x40 65 0 = [] ∧ counts (atOwner { isOpen := true } (wPkt 65)) 0x40 65 = none) ∧
    (getClu { atOwner {} (wPkt 1) with clusters := [] } (lciDc 0)).pwr.st ≠ .on ∧
    atCore { atOwner {} (wPkt 1) with clusters := [] } 3 .write = some (0, wPkt 1) ∧
    atCore (atOwner {} (pkt .write (.core 1) 0x7000 8)) 3 .write = some (0, pkt .write (.core 1) 0x7000 8) := by decide
/-- A write and a reduction admitted and not yet committed. -/
def committing (red : Option Nat) : State := { with0 { owner { isOpen := true } with held := [⟨3, [1], 0x40, (wPkt 4).data, red, none⟩] } with
  net := netOf [{ wPkt 4 with taken := true }] }
theorem test_hyp_commit : ∀ red ∈ [none, some 8], awake (committing red) = true ∧
    (getCore (committing red) 0).held.find? (fun x => x.pid == 3) = some ⟨3, [1], 0x40, (wPkt 4).data, red, none⟩ ∧
    findPkt (committing red) 3 = some { wPkt 4 with taken := true } ∧
    mayCommit (committing red) (getCore (committing red) 0) ⟨3, [1], 0x40, (wPkt 4).data, red, none⟩ = true ∧
    (getClu (committing red) (lciDc 0)).pwr.st = .on ∧ (getCore (committing red) 0).spmFlips = [] := by decide
/-- Core 0 awaits the response to request 2. -/
def reader (k : ReqKind) (p : Pkt) : State := { with0 { st := .running, out := [⟨2, k, 7, ocGet, 0x100, 0x80⟩] } with net := netOf [p] }
def resp : Pkt := { pkt .readResp (.core 1) 0 64 with req := 2 }
theorem test_hyp_remote_read : atCore (atOwner {} (pkt .readReq (.core 1) 0x6FC0 64)) 3 .readReq = some (0, pkt .readReq (.core 1) 0x6FC0 64) ∧
    (getCore (atOwner {} (pkt .readReq (.core 1) 0x6FC0 64)) 0).spmFlips = [] ∧
    atCore { atOwner {} (pkt .readReq (.core 1) 0 64) with clusters := [] } 3 .readReq = some (0, pkt .readReq (.core 1) 0 64) := by decide
theorem test_hyp_read_response : awake (reader .read resp) = true ∧ atCore (reader .read resp) 3 .readResp = some (0, resp) ∧
    (getCore (reader .read resp) 0).out.find? (fun o => o.pid == resp.req) = some ⟨2, .read, 7, ocGet, 0x100, 0x80⟩ ∧ resp.status = .commit ∧
    (getCore (reader .read resp) 0).spmFlips = [] ∧ (∃ b ∈ resp.data, b.isSome = true) := by decide
def ans (st : FabStatus) : Pkt := { pkt .answer (.core 1) 0 1 with req := 2, data := [], vc := 0, status := st }
def combined : Combined := ⟨.leaf 0, 2, 4, 5, .core 2, .core 3⟩
theorem test_hyp_answer : (∀ st ∈ [FabStatus.commit, .windowClosed, .noWindow, .resetAbort], awake (reader .write (ans st)) = true ∧
      findPkt (reader .write (ans st)) 3 = some (ans st) ∧ tableEntry (reader .write (ans st)) (ans st) = none ∧
      arrived (reader .write (ans st)) (ans st) = true ∧
      (getCore (reader .write (ans st)) 0).out.find? (fun o => o.pid == 2) = some ⟨2, .write, 7, ocGet, 0x100, 0x80⟩) ∧
    tableEntry { reader .write (ans .commit) with net := { netOf [ans .commit] with table := [combined] } } (ans .commit) = some combined := by decide
/-- Two reduction packets of tag 1 at the leaf of cluster 0, with `n` entries of its table taken. -/
def pair (n : Nat) : State := { with0 {} with
  net := { netOf [{ rPkt 4 with tag := 1, vc := 2 }, { rPkt 4 with tag := 1, vc := 2, id := 5, src := .core 2 }] with table := List.replicate n combined } }
theorem test_hyp_combine : awake (pair 1023) = true ∧
    (pair 1023).net.pkts.filter (fun x => x.id == 3 || x.id == 5) =
      [{ rPkt 4 with tag := 1, vc := 2 }, { rPkt 4 with tag := 1, vc := 2, id := 5, src := .core 2 }] ∧
    combinable (.leaf 0) { rPkt 4 with tag := 1, vc := 2 } { rPkt 4 with tag := 1, vc := 2, id := 5, src := .core 2 } = true := by decide
theorem test_hyp_combine_room : ∀ n, ((pair n).net.table.filter fun e => e.sw == .leaf 0).length = n := by
  intro n; simp [pair, netOf, combined]

/-- A packet with the hop from its leaf up to its column still to pass; another core's waits at the same output behind it (R161). -/
def hopPkt (r : Nat) : Pkt :=
  { blankPkt .write (.core 1) (.column 0) 1 (some 0) with id := 3, addr := paTarn, data := [some 1], hops := [.column 0], retries := r }
def later : Pkt := { hopPkt 0 with id := 4, src := .core 2 }
def hopping (r : Nat) : State := { with0 {} with net := netOf [later, hopPkt r] }
theorem test_hyp_hop : ∀ r ∈ [0, 2, 3], awake (hopping r) = true ∧ findPkt (hopping r) 3 = some (hopPkt r) ∧ served (hopping r) (hopPkt r) = true ∧
    Hop.column 0 ∉ (hopping r).net.hard ∧ crossesOut (hopping r) (hopPkt r) = false ∧ regionDead (hopping r) (.column 0) = false ∧
    findPkt (hopping r) 4 = some later ∧ served (hopping r) later = false := by decide
theorem test_hyp_outside : (∀ n ∈ [0, 2, 3], ({ up with net := { tries := [(.leaf 0 0, n)] } } : State).net.tries.find? (fun e => e.1 == .leaf 0 0) =
    some (.leaf 0 0, n)) ∧ Hop.leaf 0 0 ∉ up.net.hard ∧ awake up = true := by decide
/-- A VLD and a VST whose piece of one line is still to move. -/
def moved (p : MOp) : MOp := { p with formed := true, todo := [⟨0, paTarn + 0x10000, 64, []⟩] }
def vertical (p : MOp) (r : Nat) : State := { with0 { unitOf (moved p) with vRetries := if r = 0 then [] else [(0, r), (1, r)] } with
  mem := { tarnValid := [(tarnLoc 0 0x10000) / 512] } }
theorem test_hyp_vertical : ∀ p ∈ [vldOp, vstOp], ∀ r ∈ [0, 2, 3], awake (vertical p r) = true ∧ (getClu (vertical p r) (lciDc 0)).pwr.st = .on ∧
    vOldest (vertical p r) 0 = some (moved p) ∧ smapGet 0 (getCore (vertical p r) 0).vRetries 0 = r ∧
    paLoc (vertical p r) (paTarn + 0x10000) = some (tarnLoc 0 0x10000) ∧ (vertical p r).mem.flips = [] ∧ (vertical p r).mem.poison = [] ∧
    railDead (vertical p r) (tarnLoc 0 0x10000) = false ∧ (vertical p r).stuck = [] ∧ (getCore (vertical p r) 0).spmFlips = [] ∧
    (memStore (tarnLoc 0 0x10000) ((spmBytes (vertical p r) 0 0 64).map some) false (countAct 0 akVertical 1
      (updCore (vertical p r) 0 fun k => { k with vRetries := smapSet 0 k.vRetries 0 0 }))).2 = none ∧
    vBusy (vertical p r) 0 .dma = false ∧ vBusy (vertical p r) 0 .spring = false := by
  decide
/-- The same core, whose cluster's DMA engine copies a row into its scratchpads. -/
def verticalDma (r : Nat) : State := { vertical vldOp r with
  clusters := [(0, { dcOn with dma := { st := .running, cur := some { dspace := 3, rowBytes := 64, rows := 1 } } })] }
theorem test_hyp_vertical_dma : ∀ r ∈ [0, 2, 3], dmaUses (verticalDma r) 0 = true ∧ smapGet 0 (getCore (verticalDma r) 0).vRetries 1 = r ∧
    awake (verticalDma r) = true ∧ (getClu (verticalDma r) (lciDc 0)).pwr.st = .on := by decide
/-- Cores 0 and 1 of stream 0 with the same VLD in broadcast form, waiting for the bus. -/
def bOp : MOp := { mop (mw ocVld 0 0 0 0 2 0) (line 4 0x10000) (line 0 0) with started := false }
def bCore : Core := { unitOf bOp with bindEn := true }
def onBus : State := { with0 bCore with cores := [(0, bCore), (1, bCore)], clusters := [(0, { dcX true with seqs := [(0, { st := .running })] })] }
theorem test_hyp_broadcast : awake onBus = true ∧ busTaken onBus 0 = false ∧ busNext onBus 0 = some 0 ∧ bcastCores onBus 0 0 = [0, 1] ∧
    bcastIdx onBus 0 0 = some 0 ∧ bcastOps (getCore onBus 0) = [bOp] ∧ findOp (getCore onBus 0) 7 = some bOp ∧
    (bcastXl 0 bOp (farPages bOp) onBus).2.2 = none ∧
    (bcastPieces [(0, 7), (1, 7)] (formPieces (bcastXl 0 bOp (farPages bOp) onBus).2.1) (bcastXl 0 bOp (farPages bOp) onBus).1).2 = none := by decide

/-! ### Memory -/

/-- A packet to column 0: Tarn byte 0x10000, or the first byte of DRAM. -/
def cpkt (kind : PktKind) (a n : Nat) (wait : Bool) : Pkt :=
  { pkt kind (.core 1) 0 n with dst := .column 0, addr := a, waitFill := wait }
def atMem (fs : List Fill) (p : Pkt) : State := { with0 {} with net := netOf [p], mem := { fills := fs } }
def fills8 : List Fill := (List.range 8).map fun i => ⟨i + 1, 1⟩
theorem test_hyp_write : (∀ w ∈ [false, true], ∀ a ∈ [(paTarn + 0x10000, tarnLoc 0 0x10000), (0, 0)],
      atColumn (atMem [] (cpkt .write a.1 128 w)) 3 .write = some (a.2, cpkt .write a.1 128 w) ∧
      awake (atMem [] (cpkt .write a.1 128 w)) = true ∧ fillBusy (atMem [] (cpkt .write a.1 128 w)) a.2 = false ∧
      railDead (atMem [] (cpkt .write a.1 128 w)) a.2 = false ∧ a.2 % 128 + 128 ≤ 128) ∧
    ∀ w ∈ [false, true], fillBusy (atMem fills8 (cpkt .write 0 1 w)) 0 = true ∧
      atColumn (atMem fills8 (cpkt .write 0 1 w)) 3 .write = some (0, cpkt .write 0 1 w) := by decide
theorem test_hyp_read : atColumn (atMem [] (cpkt .readReq 0 64 false)) 3 .readReq = some (0, cpkt .readReq 0 64 false) ∧
    railDead (atMem [] (cpkt .readReq 0 64 false)) 0 = false := by decide
/-- Word 0 of DRAM valid, with symbol errors and perhaps poisoned; `word` names the first word of the Tarn. -/
def word (es : List (Nat × Nat)) (po : List Nat) : State := { with0 {} with
  mem := { dramValid := [0], tarnValid := [tarnLoc 0 0 / 512], flips := if es = [] then [] else [(0, es), (tarnLoc 0 0 / 128, es)], poison := po } }
def errs (n : Nat) : List (Nat × Nat) := (List.range n).map fun i => (i, 1)
theorem test_hyp_decoder : (∀ n ∈ [0, 1, 2, 3], ∀ po ∈ [[], [0]], wordValid (word (errs n) po) 0 = true ∧
      smapGet [] (word (errs n) po).mem.flips 0 = errs n ∧ (errs n).length = n) ∧
    (word [] []).mem.poison.contains 0 = false ∧ (word [] [0]).mem.poison.contains 0 = true ∧
    wordValid (word (errs 1) []) (tarnLoc 0 0 / 128) = true ∧ locIsTarn (tarnLoc 0 0 / 128 * 128) = true := by decide
/-- A column whose memory die 0 runs a step on bank 0, which owes `n` refreshes. -/
def stepping (n : Nat) : State := { busy with
  clusters := [(0, { dcOn with spr := { running := [⟨0, 0, 5, 0, [0, 1, 2, 3], if n = 0 then [] else [(0, n)], false⟩] } })] }
theorem test_hyp_upkeep : (∃ f ∈ (atMem fills8 (cpkt .write 0 1 true)).mem.fills, f.page = 8) ∧ bankHeld (word (errs 1) []) (0 * 128) = false ∧
    0 ∉ (word (errs 1) []).mem.writeBack ∧ 0 ∈ [0] ∧
    (∀ d ∈ [(0, 32), (4, 4)], (getStk (word [] []) 0).scrubEn = true ∧ (getStk (word [] []) 0).memFailed = false ∧
      (d.1 < 4 → d.1 < (word [] []).mdies) ∧
      nextWord d.2 (scrubAt (word [] []) 0 d.1) (scrubGroups (word [] []) 0 d.1) ≠ none ∧
      nextWord d.2 (scrubAt busy 0 d.1) (scrubGroups busy 0 d.1) = none) := by decide
theorem test_hyp_refresh : (∀ n ∈ [0, 4], (getClu (stepping n) (0 * 256 + 0)).spr.running.find? (fun t => t.mdie == 0 && t.banks.contains 0) =
      some ⟨0, 0, 5, 0, [0, 1, 2, 3], if n = 0 then [] else [(0, n)], false⟩) ∧ smapGet 0 [(0, 4)] 0 + 1 = 5 ∧
    (getClu busy (0 * 256 + 0)).spr.running.find? (fun t => t.mdie == 0 && t.banks.contains 0) = none ∧
    (∀ x ∈ dieReadings busy 0 0, x ≤ 664) ∧
    ∃ x ∈ dieReadings { busy with stks := [(0, { part := some 0, sites := [(0, { layers := [(2, { reading := 665 })] })] })] } 0 0, 664 < x := by decide

/-! ### Springs -/

/-- An ADD of `n` FP32 elements: operands and result in the column's own region of memory die 0, except where `b` says otherwise. -/
def addDesc (n b : Nat) : List Byte :=
  leBytes 8 0x13 ++ leBytes 8 n ++ leBytes 16 0 ++ leBytes 8 (8 * 2 ^ 48) ++ leBytes 8 (b + 8 * 2 ^ 48) ++ leBytes 8 (0x20000 + 8 * 2 ^ 48) ++ leBytes 72 0
def swait (c : Option Nat) (d : List Byte) : SprWait := { core := c, op := 7, flag := 0, desc := d, phys := true, recAddr := 0x10, after := [], afterOps := [], maddr := 0 }
def sseq (d : List Byte) (ab : Bool) : SprSeq := { seqOfWait {} (swait none d) with started := true, ending := if ab then some ssAborted else none }
def sstep : SprStep := ⟨0, 0, 0, 0, [0], [], false⟩
/-- Stack 0 all column-local, its column 0 with spring queue `q`. -/
def spring (q : SprQ) : State := { with0 { st := .running } with
  clusters := [(0, { dcOn with spr := q })], stks := [(0, { part := some 0, clsize := 12 })] }
theorem test_hyp_accept : (∀ c ∈ [none, some 0], (getSpr (spring { waiting := [swait c (addDesc 8 0x10000)] }) 0).waiting[0]? =
        some (swait c (addDesc 8 0x10000)) ∧ awake (spring { waiting := [swait c (addDesc 8 0x10000)] }) = true ∧
      sprAcceptable (spring { waiting := [swait c (addDesc 8 0x10000)] }) 0 0 (swait c (addDesc 8 0x10000)) = true ∧
      sprAcceptable (spring { waiting := [swait c (addDesc 8 0x10000)], seqs := List.replicate 16 (sseq [] false) }) 0 0 (swait c (addDesc 8 0x10000)) = false ∧
      descRefused (addDesc 8 0x10000) c.isNone = false ∧ inSalvage (spring {}) 0 = false ∧ (spring {}).dev.st ≠ .salvage ∧
      (getSpr (spring {}) 0).en = true) ∧ descRefused (addDesc 0 0x10000) false = true ∧ (getSpr (spring { en := false }) 0).en = false := by decide
theorem test_hyp_grant : awake (spring { seqs := [sseq (addDesc 8 0x10000) false] }) = true ∧
    (getMDie (spring { seqs := [sseq (addDesc 8 0x10000) false] }) (dcDie 0) 0).withheld = false ∧
    readyStep (spring { seqs := [sseq (addDesc 8 0x10000) false] }) 0 0 0 (sseq (addDesc 8 0x10000) false) ≠ none ∧
    (((List.range 4).map fun i => (smapGet 3 (getSpr (spring {}) 0).lastUnit 0 + 1 + i) % 4).findSome? fun u =>
      (getSpr (spring {}) 0).seqs.findSome? (readyStep (spring {}) 0 0 u)) = none := by decide
/-- A running step whose sequence ends with it, does not, or fails. -/
def ends (n b : Nat) (ab : Bool) : State := spring { seqs := [sseq (addDesc n b) ab], running := [sstep] }
def work (n b : Nat) (ab : Bool) : State × Nat × SprSeq :=
  stepWork 0 sstep (sseq (addDesc n b) ab) (updSpr (ends n b ab) 0 fun r => { r with running := r.running.filter fun y => y.mdie != 0 })
theorem test_hyp_step_end : (∀ ab ∈ [false, true], ∀ n ∈ [8, 1048576], (getSpr (ends n 0x10000 ab) 0).running.find? (fun t => t.mdie == 0 && !t.suspended) = some sstep ∧
      (getSpr (ends n 0x10000 ab) 0).seqs.find? (fun q => q.id == sstep.seq) = some (sseq (addDesc n 0x10000) ab)) := by decide
theorem test_hyp_step_done : (work 8 0x10000 false).2.1 = 0 ∧ seqComplete { (work 8 0x10000 false).2.2 with steps := 1 } = true ∧
    (work 8 paTarn false).2.1 ≠ 0 ∧ seqComplete { sseq (addDesc 1048576 0x10000) false with steps := 1 } = false := by decide
theorem test_hyp_submit : cluWritable busy 0 = true ∧ cluWritable up 0 = false ∧ paLoc busy paTarn = some (tarnLoc 0 0) ∧
    paLoc busy (paTarn + 127) = some (tarnLoc 0 127) ∧ locIsTarn (tarnLoc 0 127) = true ∧ locDc (tarnLoc 0 127) = 0 ∧
    (memLoad (tarnLoc 0 0) 128 5 busy).2.1 = none ∧ (getSpr busy 0).running = [] := by decide

/-! ### DMA and translation -/

/-- A descriptor that copies one row of 64 bytes from the slice's byte 0x10000 to core 0 after `k` of flag 2, REP `rep`. -/
def dmaBytes (k rep : Nat) : List Byte :=
  leBytes 8 (0x10000 + 4 * 2 ^ 48) ++ leBytes 8 (3 * 2 ^ 48) ++ leBytes 8 (64 + 2 ^ 24 + 8 * 2 ^ 40) ++ leBytes 8 0 ++
    leBytes 8 (2 * 2 ^ 10 + k * 2 ^ 14) ++ leBytes 8 (2 ^ 48) ++ leBytes 8 0 ++ leBytes 8 rep
/-- Column 0 with that descriptor in its slice, its engine as `m` and flag 2 of core 0 at `v`. -/
def dmaAt (m : Dma) (bs : List Byte) (v : Nat) : State := { with0 { flags := [(2, BitVec.ofNat 16 v)] } with
  clusters := [(0, { dcX true with dma := m })]
  mem := { tarnValid := [tarnLoc 0 0x10000 / 512], bytes := memPuts [] (tarnLoc 0 0x10000) bs } }
def loaded (bs : List Byte) : State × RangeEnd :=
  xlRange (.cluster 0) (some 0) false false (cutPages 0x10000 64) (updDma (dmaAt { head := 0x10000 } bs 0) 0 fun m =>
    { m with descAddr := 0x10000, st := .running, cur := none })
theorem test_hyp_dma_start : awake (dmaAt {} [] 0) = true ∧ cluWritable (dmaAt {} [] 0) 0 = true ∧ (getDma (dmaAt {} [] 0) 0).st = .idle ∧
    partRunning (dmaAt {} [] 0) 0 = true ∧ partRunning { dmaAt {} [] 0 with parts := [] } 0 = false ∧ dcPart (dmaAt {} [] 0) 0 = some 0 ∧
    (∀ bs ∈ [[], dmaBytes 0 1, dmaBytes 3 1], (loaded bs).2 = .ok [(paTarn + 0x10000, 64)]) := by decide
theorem test_hyp_dma_descriptor : ownSide (loaded (dmaBytes 3 1)).1 0 [(paTarn + 0x10000, 64)] = some .tarn ∧
    (loadPieces 4 [(paTarn + 0x10000, 64)] (loaded (dmaBytes 3 1)).1).2 = (none, dmaBytes 3 1) ∧ dmaCheck (dmaParse (dmaBytes 3 1)) = none ∧
    dmaCheck (dmaParse (List.replicate 64 0)) = some fcDescInvalid := by decide
def dmaRun (st : DmaSt) (k rep : Nat) : Dma := { head := 0x10000, st := st, cur := some (dmaParse (dmaBytes k rep)) }
theorem test_hyp_dma_run : (∀ st ∈ [DmaSt.running, .waiting], ∀ v ∈ [2, 3], (getDma (dmaAt (dmaRun st 3 2) [] v) 0).st = st ∧
      (getDma (dmaAt (dmaRun st 3 2) [] v) 0).cur = some (dmaParse (dmaBytes 3 2)) ∧
      (smapGet 0 (getCore (dmaAt (dmaRun st 3 2) [] v) (0 * 1024 + (dmaParse (dmaBytes 3 2)).wcore)).flags (dmaParse (dmaBytes 3 2)).wflag).toNat = v ∧
      (dmaParse (dmaBytes 3 2)).wcount = 3) := by decide
theorem test_hyp_dma_copy : (dmaCopy 0 (dmaParse (dmaBytes 0 1)) 0 1 (dmaAt (dmaRun .running 0 1) [] 0)).2 = 0 ∧ (dmaParse (dmaBytes 0 1)).rows = 1 ∧
    (dmaCopy 0 (dmaParse (dmaBytes 0 1)) 0 1 { dmaAt (dmaRun .running 0 1) [] 0 with clusters := [] }).2 ≠ 0 := by decide

/-- Stack 0 with an entry `e` at the first 8 bytes of its DRAM. -/
def table (e : Nat) : State := { busy with mem := { dramValid := [0], bytes := memPuts [] 0 (leBytes 8 e) } }
theorem test_hyp_walk : (∀ e ∈ [0, 0x1001, 7], 0 % levelTable 2 = 0 ∧ paInPart (table e) 0 0 (levelTable 2) = true ∧
      paLoc (table e) (0 + 8 * levelIndex 2 0) = some 0 ∧ (memLoad 0 8 3 (table e)).2 = (none, leBytes 8 e)) ∧
    entOk 0 = false ∧ entOk 0x1001 = true ∧ entLeaf 0x1001 = false ∧ entOk 7 = true ∧ entLeaf 7 = true ∧ entPa 7 % levelPage 2 = 0 ∧
    paInPart (table 7) 0 (entPa 7) (levelPage 2) = true ∧ entPa 7 % levelPage 3 = 0 ∧ paInPart (table 7) 0 (entPa 7) (levelPage 3) = true := by decide
/-- A walk of cluster 0 for sequencer 0 or for macro-op 7 of core 0. -/
def walking (kv : Bool) (r : WalkFor) (e : Nat) : State := { table e with
  cores := [(0, unitOf vldOp)], walks := [⟨4, .cluster 0, 0, 0, kv, r⟩]
  clusters := [(0, { dcOn with xlatEn := true })] }
theorem test_hyp_walk_done : (∀ r ∈ [WalkFor.seq 0, .op 0 7], ∀ kv ∈ [false, true], awake (walking kv r 0) = true ∧
      (walking kv r 0).walks.find? (fun w => w.id == 4 && w.kv == kv) = some ⟨4, .cluster 0, 0, 0, kv, r⟩ ∧
      (kv = true → (walking kv r 0).walks.find? (fun x => x.kv && x.who == .cluster 0) = some ⟨4, .cluster 0, 0, 0, kv, r⟩) ∧
      findOp (getCore (walking kv r 0) 0) 7 = some vldOp) ∧
    (xlWalk (.cluster 0) 0 0 false { walking false (.op 0 7) 0 with walks := [] }).2 = .fault ∧
    (xlWalk (.cluster 0) 0 0 true { walking true (.op 0 7) 0 with walks := [] }).2 = .fault := by decide
/-- A chain of tables that ends in a leaf: each level's first entry names the next table. -/
def deep : State := { walking false (.op 0 7) 0 with
  mem := { dramValid := [0], tarnValid := [tarnLoc 0 0 / 512, tarnLoc 0 4096 / 512]
           bytes := memPuts (memPuts (memPuts [] 0 (leBytes 8 (paTarn + 1))) (tarnLoc 0 0) (leBytes 8 (paTarn + 4096 + 1)))
             (tarnLoc 0 4096) (leBytes 8 7) } }
theorem test_hyp_walk_translates : (xlWalk (.cluster 0) 0 0 false { deep with walks := [] }).2 =
    .ok ⟨0, 0, 0x20_0000, 0, true, false, false⟩ := by decide
def inval (is : List Inv) (k : Core) : State := { with0 k with clusters := [(0, { dcX true with xlat := { (dcX true).xlat with inv := is } })] }
/-- An invalidation that macro-op 7 of core 0 used the removed translation of, or none did. -/
def invOf (w : Option Nat) (ops : List (Nat × Nat)) : Inv := ⟨w, none, none, ops, []⟩
theorem test_hyp_invalidate : cluWritable (inval [] {}) 0 = true ∧ cluWritable up 0 = false ∧ (getClu (inval [] {}) 0).xlat.inv = [] ∧
    (∀ w ∈ [none, some 0x10000], (getClu (inval [invOf w []] {}) 0).xlat.inv = [invOf w []] ∧ invHeld (inval [invOf w []] {}) (invOf w []) = false ∧
      invHeld (inval [invOf w [(0, 7)]] (unitOf { vldOp with formed := true, xl := [(1, paTarn)], todo := [⟨0, paTarn, 64, []⟩] })) (invOf w [(0, 7)]) =
        true) := by
  decide

/-! ### Registers of a cluster -/

theorem test_hyp_kvw : kvFitted { busy with mdies := 3 } = true ∧ kvwOpen { busy with mdies := 3 } 0 = true ∧
    kvwOpen { with0 { st := .running } with mdies := 3 } 0 = false ∧ kvFitted busy = false := by decide
theorem test_hyp_spm_power : newlyDown (getClu (with0 {}) 0).spmPwr 0x21 = [0, 5] ∧
    (∀ c ∈ cluCores (with0 { spm := [(0, 1)] }) 0, (getCore (with0 { spm := [(0, 1)] }) c).st = .idle ∧ ∀ w, w < 4 → ∀ h ∈ [0, 5],
      winInHalf (getWin (getCore (with0 { spm := [(0, 1)] }) c) w) h = false) ∧
    (∃ c ∈ cluCores (with0 { st := .running }) 0, (getCore (with0 { st := .running }) c).st ≠ .idle) := by decide
theorem test_hyp_single : lciOk 0 = true ∧ (getCore busy 0).st = .idle ∧ (getCore (with0 { st := .running }) 0).st ≠ .idle ∧
    (getStk up 0).part = none ∧ (getStk busy 0).part ≠ none ∧
    (getClu { busy with clusters := [(0, { dcOn with spmBusy := true })] } 0).spmBusy = true ∧ (getClu busy 0).spmBusy = false := by decide
def eight : List Byte := leBytes 8 5
theorem test_hyp_register_write : paDecode busy (paClu + 0x10) = .clu 0 0x10 ∧ cluWritable busy 0 = true ∧ eight.length = 8 ∧
    coverUnits (fun _ => 8) 0x10 (eight.map some) = some [(0x10, 5)] ∧ coverUnits (fun _ => 8) 0x10 ((eight.take 4).map some) = none ∧
    paDecode busy (paDie + 0xFFF8) = .die 0 0xFFF8 ∧ coverUnits (fun _ => 8) 0xFFF8 (eight.map some) = some [(0xFFF8, 5)] ∧
    paDecode busy (spmPa 0 0x7100) = .spm 0 0x7100 ∧ coverUnits pageUnit 0x7100 ((eight.take 4).map some) = some [(0x7100, 5)] ∧
    paDecode busy (2 ^ 47) = .unmapped ∧ barUp busy = true := by decide

/-! ### Apertures -/

/-- Aperture 1 of partition 0. -/
def ap1 : Aperture := { en := true, part := some 0 }
def onAp (k : Aperture) : State := { busy with aps := [(1, k)] }
/-- Units of 16 bytes: a packet header of command `op`, ENC clear, with `len` and the packet's number, for partition 0. -/
def header (op len slot : Nat) : List Byte :=
  leBytes 2 op ++ leBytes 2 0 ++ leBytes 2 len ++ [0, 0] ++ leBytes 4 slot ++ leBytes 4 9
theorem test_hyp_unit : hostUp busy = true ∧ (0x100_0000 + 15 * 4096 + 0xFF0) % 16 = 0 ∧ apWindow (getAp (onAp ap1) 1) = 64 ∧
    (63 + 4096 - (getAp (onAp ap1) 1).next % 4096) % 4096 < 64 ∧ 64 ≤ (64 + 4096 - (getAp (onAp ap1) 1).next % 4096) % 4096 ∧
    hostUp { busy with dev := { busy.dev with st := .boot } } = false ∧ awake { busy with dev := { busy.dev with st := .boot } } = true := by decide
/-- A packet of two units landed in slot 0. -/
def landed (len : Nat) : State := onAp { ap1 with units := [(0, header 2 len 0), (1, List.replicate 16 0)] }
theorem test_hyp_take : ∀ len ∈ [1, 2], awake (landed len) = true ∧ hostUp (landed len) = true ∧ (getAp (landed len) 1).en = true ∧
    apHeld (landed len) 1 = false ∧ packetLanded (getAp (landed len) 1) = true ∧ landedLen (getAp (landed len) 1) = some len := by decide
def raw (op len : Nat) : RawPkt := ⟨header op len 7 ++ List.replicate 16 0, 7⟩
theorem test_hyp_examine : (∀ op ∈ [0, 2, 4, 5], fieldAt (raw op 2).bytes 0 2 = op ∧ fieldAt (raw op 2).bytes 4 2 = 2 ∧
      apSession (onAp ap1) 1 = none ∧ lenOk 2 = true ∧ natBit (fieldAt (raw op 2).bytes 2 2) 0 = false ∧ apPart (onAp ap1) 1 = some 0) ∧
    lenOk (fieldAt (raw 2 1).bytes 4 2) = false ∧ lenOk 256 = true ∧ lenOk 257 = false ∧
    check3 (onAp ap1) 1 (raw 2 2).bytes 7 (bytesAt (raw 2 2).bytes 32 (16 * 2 - 32)) = none ∧
    check3 (onAp ap1) 1 (raw 3 2).bytes 7 (bytesAt (raw 3 2).bytes 32 (16 * 2 - 32)) = some (4, 1) := by decide
/-- Partition 0 with a session, of which the packets carry tags. -/
def inSession (s : State) : State := { s with parts := [(0, { st := .running, session := some ⟨[1]⟩ })] }
theorem test_hyp_examine_session : apSession (inSession (onAp ap1)) 1 = some ⟨[1]⟩ ∧ lenOk 3 = true ∧
    openPacket ⟨[1]⟩ 1 0 (raw 2 3).bytes 3 = none := by decide
def rec1 : Rec := ⟨stOk, 2, 7, 9, []⟩
theorem test_hyp_record : (getAp (onAp { ap1 with recs := [rec1] }) 1).recs = [rec1] ∧ ringSpace (getAp (onAp ap1) 1) = true ∧ barUp busy = true ∧
    ringSpace { ap1 with tail := 64 } = false ∧ ringSpace { ap1 with tail := 63 } = true ∧ (getAp (onAp ap1) 1).recs = [] ∧
    0 < (getAp (inSession (onAp { ap1 with evNew := 1 })) 1).evNew ∧ apSession (inSession (onAp { ap1 with evNew := 1 })) 1 ≠ none ∧
    (getAp (inSession (onAp { ap1 with evq := [⟨0x0102, []⟩] })) 1).evNew = 0 ∧
    (getAp (inSession (onAp { ap1 with evq := [⟨0x0102, []⟩] })) 1).evq = [⟨0x0102, []⟩] := by decide
theorem test_hyp_msix : 0 < (getAp (onAp { ap1 with unsignalled := 1 }) 1).unsignalled ∧ (getAp (onAp { ap1 with unsignalled := 1 }) 1).mask = false ∧
    natBit (msixWord { onAp { ap1 with unsignalled := 1 } with pcie := { msixTable := [(7, 2)] } } (4 * apVec ap1 1 + 3)).toNat 0 = false ∧
    (getAp (onAp { ap1 with unsignalled := 1, mask := true }) 1).mask = true := by decide
theorem test_hyp_ring_head : sub32 (64 % 2 ^ 32) 0 ≤ sub32 (getAp (onAp { ap1 with tail := 64 }) 1).tail (getAp (onAp { ap1 with tail := 64 }) 1).head ∧
    sub32 (getAp (onAp { ap1 with tail := 64 }) 1).tail (getAp (onAp { ap1 with tail := 64 }) 1).head < sub32 (65 % 2 ^ 32) 0 ∧
    2 ^ (getAp (onAp { ap1 with tail := 64 }) 1).log2n ≤ sub32 64 0 ∧ sub32 5 (2 ^ 32 - 1) = 6 := by decide
theorem test_hyp_enable : natBit (1#64).toNat 48 = false ∧ natBit (1#64).toNat 0 = true ∧ (getAp (onAp {}) 1).en = false := by decide

/-! ### Commands of an aperture -/

def cmdOf (op : Nat) (ps : List Byte) : Cmd :=
  { opcode := op, seq := 5, tag := 9, enc := true, params := ps, count := 0, started := false, moved := 0, aux := 0, buf := [], stray := none }
/-- `s` with command `op` in progress on aperture `a`. -/
def doing (a op : Nat) (ps : List Byte) (s : State) : State :=
  { s with aps := [(a, { en := true, part := if a = 0 then none else some 0, cur := some (cmdOf op ps) })] }
/-- A parameter area of `n` zero bytes. -/
def z (n : Nat) : List Byte := List.replicate n 0

theorem test_hyp_no_command : (getAp (onAp ap1) 1).cur = none ∧ (getAp (doing 1 0x44 [] busy) 1).cur = some (cmdOf 0x44 []) ∧
    (cmdOf 0x44 []).opcode ≠ 0x45 := by decide
/-- Every command of QueryCommands is in progress somewhere. -/
theorem test_hyp_query : ∀ x ∈ [(0, 0x01, 16), (0, 0x02, 0), (1, 0x03, 48), (0, 0x10, 0), (0, 0x11, 24), (0, 0x12, 1), (0, 0x13, 24)],
    Current (doing x.1 x.2.1 (z x.2.2) busy) x.1 x.2.1 (cmdOf x.2.1 (z x.2.2)) := by unfold Current; decide
theorem test_report_length : (report busy (some 0) (z 32)).length = 512 := by set_option maxRecDepth 4000 in decide
theorem test_hyp_attest : (report busy (some 0) (z 32)).length ≤ (cmdOf 3 (z 40 ++ leBytes 8 512)).p 40 8 ∧
    (cmdOf 3 (z 40 ++ leBytes 8 511)).p 40 8 < (report busy (some 0) (z 32)).length := by
  rw [test_report_length]; decide
def logged : State := { busy with dev := { busy.dev with log := [⟨4, 0, 0x0101, 0, 0, []⟩] } }
theorem test_hyp_log : (logFrom ((cmdOf 0x11 (leBytes 4 4 ++ z 20)).p 0 4) logged.dev.log).take (min 4096 (max 1 ((cmdOf 0x11 (leBytes 4 4 ++ z 20)).p 4 4))) ≠ [] ∧
    natBit ((cmdOf 0x12 [0x7F]).p 0 1) 7 = false ∧ natBit ((cmdOf 0x12 [0x7F]).p 0 1) 0 = true ∧ natBit ((cmdOf 0x12 [0x7E]).p 0 1) 0 = false ∧
    telemetryRefs 0 (cmdOf 0x13 (z 24)) busy = none ∧ partIn 1 [.config, .ready] (doing 1 0x10 [] { busy with parts := [(0, { st := .ready })] }) = true := by
  decide
/-- A device in CONFIG with no partition. -/
def fresh : State := { up with dev := { up.dev with st := .config } }
theorem test_hyp_policies : (∃ q, q < 6 ∧ ((getPart busy q).st = .running ∨ (getPart busy q).st = .draining)) ∧
    fwWriteRefs (cmdOf 0x20 (z 4 ++ leBytes 4 4096 ++ z 16)) busy = none ∧ (cmdOf 0x21 [1]).p 0 1 = inactiveSlot busy ∧
    devIn [.safeTalk, .config, .ready] fresh = true ∧ (∀ q, q < 6 → (getPart fresh q).st ≠ .running ∧ (getPart fresh q).st ≠ .draining) ∧
    fresh.dev.lockBits % 2 = 0 ∧ ({ fresh with dev := { fresh.dev with lockBits := 1 } } : State).dev.lockBits % 2 = 1 ∧ busyParts fresh = 0 ∧
    lockSet fresh = false ∧ fresh.dev.supplyLost = false := by decide
def mk (st : Nat) : List Byte := leBytes 1 st ++ [0] ++ leBytes 2 (2 ^ (st + 1)) ++ leBytes 4 0
/-- A READY device: no stack or aperture is assigned. -/
def ready : State := { up with dev := { up.dev with st := .ready } }
theorem test_hyp_create : Current (doing 0 0x40 (mk 1) ready) 0 0x40 (cmdOf 0x40 (mk 1)) ∧ devIn [.ready, .running, .draining] ready = true ∧
    createRefs (cmdOf 0x40 (mk 1)) ready = none ∧ createStacks (cmdOf 0x40 (mk 1)) = [0] ∧ createAps (cmdOf 0x40 (mk 1)) = [2] ∧
    (getStk ready 0).part = none ∧ (getStk ready 0).unavailable = false ∧ (getAp ready 2).part = none ∧ (getStk busy 0).part ≠ none ∧
    (getAp { ready with aps := [(2, ap1)] } 2).part ≠ none ∧ (getStk { ready with stks := [(0, { unavailable := true })] } 0).unavailable = true := by
  unfold Current; decide
/-- The base point of brainpoolP384r1 (RFC 5639) as a key. -/
def pointG : List Byte := beBytes 48 ecG.1 ++ beBytes 48 ecG.2
theorem test_hyp_kex : kexRefs (cmdOf 4 (pointG ++ z 8 ++ leBytes 8 192)) fresh = none ∧ kexLegal 0 (doing 0 4 (pointG ++ z 8 ++ leBytes 8 192) fresh) = true ∧
    Current (doing 0 4 (pointG ++ z 8 ++ leBytes 8 192) fresh) 0 4 (cmdOf 4 (pointG ++ z 8 ++ leBytes 8 192)) := by
  unfold Current; decide +kernel
/-- OWNER_LOCK's actions 1 to 4 with the burnt bits of the lock field, a key and a signature that passes under it, made for the digest of R434. -/
def lockCases : List (Nat × Nat × (Nat × Nat) × Nat × Nat) :=
  [(1, 0, (0x6FE19CEB9F5836047539D861A059A5CE4D426A109754ECBC3D832EDBCDCAEA6C04DA11F8F335635A87D6171CF920D19E,
    0x47ED9950B595AD0A601E465000680CF4234AE475B285BAEEECFF1BE9CBDC4E01F03ECBEE7B2697E009646DC48A7C9F87),
    0x510EAF34BD8DB9D3B7201A6DE4C6D686906417432538D9C46F97F4A6C959CA730E3D97FBB61F551C66AAC799DB3473A7,
    0x3771F36DD83189BEF19F627B0D6B46196964E21344A34C1DE3AB98C4DD577C06B75E13AAC867C60B288CBE67310E3643),
   (2, 0, (0x6D70748981C65DFB85788D408593D42A3924C17020874D887DA9830A76D75058F2D56618CA49991A9F08CFF92F695C47,
    0x877269CB5E388E371232AD2E40080DE5BE1C973E3FA5461CBC08B374A4F611D67FFB676AEFC94323501477D2CF48EE25),
    0x55277A83E9EF3B47014F98F7F426CDB6A560157C7D7F69FFD8D9C618C30C9932AD59CC7265415384D514546B9A14261C,
    0x55277A83E9EF3B47014F98F7F426CDB6A560157C7D7F69FFD8D9C618C30C9932AD59CC7265415384D514546B9A14261C),
   (3, 1, (0x610911787B309B77706B3A3122D9F46234EC0E94D2DAC29849EF964F57DC36434C3C19E7D06E806BF3BDE03BCB8C4C1E,
    0xFD9146A188749CC020EA7CC854B13E8AF237DA6CA11C8AC493906DEB96CA9A33AD3C9D88C038ADA554124B098142E29),
    0x8A88A8041282C8396085E1AAA6C65E3F2152ACA0C8326D1F49AA2C6438EC736F8294235365659F3586AEB47EC33D9028,
    0x702400B598D59CBD1C8609A11EB1D3F8E02CFFF2E9A316A4EE2F7E553F64FA7AFCDA74AD21942E7AD841754E4C7559AB),
   (4, 0, (0x399B45364E29141D79FA6B587CD33616E36A87F273E69D270428DB62FE1F0418280D644DB709E7E9E1E4ADE1D4BCAEAC,
    0x38AD9DDE062EB9FB21E0C3F1339AFCC8AA58C170689B610CCDBB3744138183EDC691217C295393A41F2B5E9A475485B9),
    0x2E647D0E5059E0B59E6FC276E63CCEC09A76978FC960B145C6DC8D089E2A6899BB29EBD10CCB4A7AC6A3A6C4C3CC5B6E,
    0x17323E87282CF05ACF37E13B731E67604D3B4BC7E4B058A2E36E46844F15344CDD94F5E88665A53D6351D36261E62DB7)]
def lockPs (x : Nat × Nat × (Nat × Nat) × Nat × Nat) : List Byte :=
  leBytes 1 x.1 ++ z 7 ++ beBytes 48 x.2.2.1.1 ++ beBytes 48 x.2.2.1.2 ++ beBytes 48 x.2.2.2.1 ++ beBytes 48 x.2.2.2.2
/-- The part before the action: without an owner for action 1, else with the key's hash in slot 0. -/
def lockAt (x : Nat × Nat × (Nat × Nat) × Nat × Nat) : State := { fresh with dev := { fresh.dev with
  lockBits := x.2.1, ownerSlots := if x.1 = 1 then [] else [(0, sha384 (bytesAt (lockPs x) 8 96))] } }
theorem test_hyp_lock : ∀ x ∈ lockCases, lockRefs (cmdOf 0x22 (lockPs x)) (lockAt x) = none ∧ (cmdOf 0x22 (lockPs x)).p 0 1 = x.1 ∧
    (x.1 = 1 → ownerSlot (lockAt x) = none ∧ emptySlot (lockAt x) = some 0 ∧ lockSigned (cmdOf 0x22 (lockPs x)) (lockAt x) 0 = true) ∧
    (x.1 ≠ 1 → lockOwner (cmdOf 0x22 (lockPs x)) (lockAt x) = some 0 ∧ lockSet (lockAt x) = (x.1 == 3)) ∧
    (lockAt x).dev.lockBits < 128 := by decide +kernel
theorem test_hyp_lock_query : lockRefs (cmdOf 0x22 (z 200)) fresh = none ∧ (cmdOf 0x22 (z 200)).p 0 1 = 0 := by decide
theorem test_hyp_settings : Current (doing 0 0x30 (leBytes 2 240 ++ [0x24] ++ z 15) fresh) 0 0x30 (cmdOf 0x30 (leBytes 2 240 ++ [0x24] ++ z 15)) ∧
    (cmdOf 0x30 (leBytes 2 240 ++ [0x24] ++ z 15)).p 2 1 < 64 ∧ orderOk 0x24 = true ∧ devIn [.config, .ready, .running, .draining] fresh = true ∧
    Current (doing 0 0x31 (z 6) fresh) 0 0x31 (cmdOf 0x31 (z 6)) ∧ Current (doing 0 0x32 [0x3F] fresh) 0 0x32 (cmdOf 0x32 [0x3F]) ∧
    commitRefs (cmdOf 0x32 [0x3F]) fresh = none ∧ fresh.dev.st = .config := by unfold Current; decide
/-- Partition 0 in a state of its own. -/
def inPart (p : PartSt) (op : Nat) (ps : List Byte) : State := doing 1 op ps { busy with parts := [(0, { st := p })] }
theorem test_hyp_partition : (∀ x ∈ [(PartSt.config, 0x42, 32), (.config, 0x43, 0), (.ready, 0x43, 0), (.ready, 0x44, 0), (.running, 0x44, 0), (.running, 0x45, 4),
      (.ready, 0x45, 4), (.config, 0x46, 0), (.running, 0x47, 8)],
      apPart (inPart x.1 x.2.1 (z x.2.2)) 1 = some 0 ∧ Current (inPart x.1 x.2.1 (z x.2.2)) 1 x.2.1 (cmdOf x.2.1 (z x.2.2)) ∧
      (getPart (inPart x.1 x.2.1 (z x.2.2)) 0).st = x.1) ∧ configRefs 1 (cmdOf 0x42 (z 32)) (inPart .config 0x42 (z 32)) = none ∧ fwWriting busy = false ∧
    unitRefs 1 (cmdOf 0x47 (z 8)) (inPart .running 0x47 (z 8)) = none ∧ unitRefs 1 (cmdOf 0x47 ([1] ++ z 7)) (inPart .running 0x47 ([1] ++ z 7)) = none ∧
    (getClu (inPart .running 0x47 ([1] ++ z 7)) 0).pwr.inReset = false := by unfold Current; decide
/-- Partition 0 draining, with or without a running stream. -/
def draining (q : SeqSt) : State := { busy with parts := [(0, { st := .draining })], clusters := [(0, { dcOn with seqs := [(0, { st := q })] })] }
theorem test_hyp_drain : (getPart (draining .idle) 0).st = .draining ∧ (getPart (draining .idle) 0).resetting = none ∧ liveStreams (draining .idle) 0 = [] ∧
    liveDmas (draining .idle) 0 = [] ∧ liveSprings (draining .idle) 0 = 0 ∧ liveChains (draining .idle) 0 = [] ∧ liveStreams (draining .running) 0 ≠ [] := by
  decide
/-- Partition 0 being reset, with or without one of its packets in flight. -/
def resetting (why : ResetWhy) (ps : List Pkt) : State := { with0 {} with parts := [(0, { st := .running, resetting := some why })], net := netOf ps }
theorem test_hyp_reset : (∀ w ∈ [ResetWhy.command 1, .session, .sessionEnd 1, .destroy 1], (getPart (resetting w []) 0).resetting = some w ∧
      (∀ p ∈ (resetting w []).net.pkts, pktOf (resetting w []) 0 p = false)) ∧
    (∃ p ∈ (resetting .session [wPkt 1]).net.pkts, pktOf (resetting .session [wPkt 1]) 0 p = true) ∧
    partIn 1 [.config, .ready, .running, .draining, .salvage] (inPart .running 0x46 []) = true ∧ (inPart .running 0x46 []).dev.st ≠ .salvage ∧
    (cmdOf 0x41 [0]).p 0 1 < 6 ∧ (getPart busy 0).st ≠ .none ∧
    (getClu { busy with clusters := [(0, { pwr := { resetOff := true } })] } 0).pwr.resetOff = true := by decide

/-! ### Transfers and commands on clusters -/

/-- BCAST_WRITE of 16 bytes to slice offset 0 of every column. -/
def bps : List Byte := [0, 0, 0, 0, 0, 0xFF, 0, 0] ++ leBytes 8 16 ++ z 16
/-- Partition 0 in a session, with command `op` on aperture 1; `st` once it has started. -/
def moving (op : Nat) (ps : List Byte) (st : Bool) : State :=
  inSession { busy with aps := [(1, { en := true, part := some 0, cur := some { cmdOf op ps with started := st } })] }
def tp (sp n : Nat) : List Byte := leBytes 8 (0x10000 + sp * 2 ^ 48) ++ leBytes 8 n ++ z 16
theorem test_hyp_transfer : (∀ x ∈ [(0x51, 3), (0x50, 3), (0x50, 4)], dmaRefs 1 (cmdOf x.1 (tp x.2 16)) (moving x.1 (tp x.2 16) false) = none ∧
      Current (moving x.1 (tp x.2 16) false) 1 x.1 (cmdOf x.1 (tp x.2 16)) ∧
      partIn 1 [.ready, .running, .draining, .salvage] (moving x.1 (tp x.2 16) false) = true) ∧
    springPage (moving 0x50 (tp 4 16) false) (some 0) 0x10000 16 = none ∧
    xloadRefs 1 (cmdOf 0x53 (leBytes 8 paTarn ++ leBytes 8 4096 ++ z 16)) (moving 0x53 (leBytes 8 paTarn ++ leBytes 8 4096 ++ z 16) false) = none ∧
    bcastRefs 1 (cmdOf 0x52 bps) (moving 0x52 bps false) = none := by unfold Current; decide
/-- The translation root of partition 0 with page 0x10000 a spring page, held by the lead I/O die. -/
def springy : State := { moving 0x50 (tp 4 16) false with
  parts := [(0, { st := .running, session := some ⟨[1]⟩, rootEn := true })]
  xlead := { tlb := [⟨0, 0x10000, 0x10000, 0, true, true, false⟩] } }
theorem test_hyp_spring_page : springPage springy (apPart springy 1) 0x10000 16 = some 0x10000 ∧
    natBits ((cmdOf 0x50 (tp 4 16)).p 0 8) 50 48 = 4 ∧ dmaRefs 1 (cmdOf 0x50 (tp 4 16)) springy = none := by decide
theorem test_hyp_chunk : ∀ x ∈ [(0x50, 3), (0x51, 3), (0x53, 0), (0x20, 0)], awake (moving x.1 (tp x.2 16) true) = true ∧
    (getAp (moving x.1 (tp x.2 16) true) 1).cur = some { cmdOf x.1 (tp x.2 16) with started := true } ∧
    apSession (moving x.1 (tp x.2 16) true) 1 = some ⟨[1]⟩ ∧ apHeld (moving x.1 (tp x.2 16) true) 1 = false := by decide
/-- For every chunk, some tag passes and some tag fails. -/
theorem test_hyp_tag (ss : Session) (a count addr sp i : Nat) (data : List Byte)
    (h : bytesAt (gcmTag (sessKey ss a 0) (gcmNonce count i a 2) (chunkAad addr i data.length sp) data) 0 16 =
      gcmTag (sessKey ss a 0) (gcmNonce count i a 2) (chunkAad addr i data.length sp) data) :
    (∃ tag bs, openChunk ss a count addr sp i data tag = some bs) ∧ ∃ tag, openChunk ss a count addr sp i data tag = none := by
  have ne : bytesAt (List.replicate 16 0) 0 16 ≠ bytesAt (List.replicate 16 1) 0 16 := by decide
  refine ⟨⟨_, _, by unfold openChunk gcmOpen; rw [if_pos h.symm]⟩, ?_⟩
  by_cases e : gcmTag (sessKey ss a 0) (gcmNonce count i a 2) (chunkAad addr i data.length sp) data = bytesAt (List.replicate 16 0) 0 16
  · exact ⟨List.replicate 16 1, by unfold openChunk gcmOpen; rw [if_neg (by rw [e]; exact ne)]⟩
  · exact ⟨List.replicate 16 0, by unfold openChunk gcmOpen; rw [if_neg e]⟩
/-- A tag has 16 bytes, as the chunk test asks: here that of one chunk. -/
theorem test_hyp_tag_length : bytesAt (gcmTag (sessKey ⟨[1]⟩ 1 0) (gcmNonce 0 0 1 2) (chunkAad 0x10000 0 16 4) (z 16)) 0 16 =
    gcmTag (sessKey ⟨[1]⟩ 1 0) (gcmNonce 0 0 1 2) (chunkAad 0x10000 0 16 4) (z 16) := by decide +kernel
/-- The packets of that broadcast, in a partition without a stack: nothing is held back. -/
def cast : State × BcastJob :=
  let s := { moving 0x52 bps true with stks := [] }
  runBcast 0 (bcastTargets s 0 0 0xFF) { left := (cutLines 0 16).map fun p => (p.1, z 16) } s
theorem test_hyp_broadcast_write : apPart (moving 0x52 bps false) 1 = some 0 ∧ Current (moving 0x52 bps false) 1 0x52 (cmdOf 0x52 bps) ∧
    (cmdOf 0x52 bps).p 8 8 = (z 16).length ∧ (cmdOf 0x52 bps).p 4 1 = 0 ∧ (cmdOf 0x52 bps).p 5 1 = 0xFF ∧
    cast.2.wait = [] ∧ cast.2.left = [] ∧ cast.2.first = none := by
  unfold Current; decide +kernel
/-- The packet of an owner that holds it back, and of one that does not. -/
def jobOf (w : Option (Nat × Nat)) : OutJob := { spm := true, left := [], wait := w }
theorem test_hyp_job : (∀ w ∈ [none, some (3, 16)], (runJob .leadIo (jobOf w) (moving 0x50 (tp 3 16) true)).2.over = w.isNone) ∧
    (jobOf none).first = none ∧ ({ jobOf none with first := some (.resetAbort, 5) } : OutJob).first ≠ none := by decide

/-- A command of partition 0 that names cluster 0 and its sequencer 0 in state `q`. -/
def onClu (op : Nat) (ps : List Byte) (q : SeqSt) : State := { doing 1 op ps busy with
  cores := [(0, { bindEn := true, st := if q = .trapped then .trapped else .idle })]
  clusters := [(0, { dcX true with seqs := [(0, { st := q, start := 0x10000, limit := 0x10040, trp := if q = .trapped then some (5, 0x10000) else none })] })] }
def startPs : List Byte := z 8 ++ leBytes 8 0x10000 ++ leBytes 8 0x10040 ++ leBytes 4 1 ++ leBytes 4 1
theorem test_hyp_cluster_commands : (∀ x ∈ [(0x54, z 8, SeqSt.idle), (0x55, leBytes 8 (paClu + 0xFE0) ++ [4], .idle), (0x56, leBytes 8 (paClu + 0x20) ++ z 8, .idle),
      (0x56, leBytes 8 (paClu + 0x100) ++ leBytes 8 1, .idle), (0x60, startPs, .idle), (0x60, startPs, .ended), (0x60, startPs, .faulted), (0x61, z 4, .trapped), (0x61, [0, 0, 0, 1], .trapped), (0x61, [0, 0, 0, 2], .trapped),
      (0x61, [0, 0, 0, 2], .running), (0x61, [0, 0, 0, 1], .running), (0x62, z 16, .idle), (0x62, [0, 0, 0, 1] ++ z 12, .idle)],
      Current (onClu x.1 x.2.1 x.2.2) 1 x.1 (cmdOf x.1 x.2.1) ∧ apPart (onClu x.1 x.2.1 x.2.2) 1 = some 0 ∧
      partIn 1 [.running] (onClu x.1 x.2.1 x.2.2) = true ∧ (getSeq (onClu x.1 x.2.1 x.2.2) 0 0).st = x.2.2) := by unfold Current; decide
theorem test_hyp_registers : regPlace busy 1 (paClu + 0xFE0) = none ∧ regPlace (onClu 0x55 [] .idle) 1 (paClu + 0xFE0) = some (0, 0xFE0) ∧
    0xFE0 + 8 * min 4 (max 1 ((cmdOf 0x55 (leBytes 8 (paClu + 0xFE0) ++ [4])).p 8 4)) ≤ 0x1000 ∧
    regPlace (onClu 0x56 [] .idle) 1 (paClu + 0x100) = some (0, 0x100) ∧ 0x100 ∈ regAny ∧ 0x20 ∈ regZero ∧
    cluWritable (onClu 0x56 [] .idle) 0 = true ∧ regIgnores (onClu 0x56 [] .idle) 0 0x100 1 = false := by decide
def bound : State × Nat × Nat := bindCores 0 (namedCores (cmdOf 0x60 startPs)) (onClu 0x60 startPs .idle)
theorem test_hyp_stream_start : startRefs 1 (cmdOf 0x60 startPs) (onClu 0x60 startPs .idle) = none ∧ boundCores bound.1 0 0 ≠ [] ∧
    (cmdOf 0x60 startPs).p 16 8 - (cmdOf 0x60 startPs).p 8 8 = 64 := by decide +kernel
/-- The bytes of that stream are read over the fabric's planes, whichever they are. -/
theorem test_hyp_stream_bytes : ∃ r, streamBytes 0 (cutPages 0x10000 64) bound.1 = (r, .inr (z 64)) := by
  have c : cutPages 0x10000 64 = [(0x10000, 64)] := by decide
  have w : (xlNow (.cluster 0) (dcPart bound.1 0) 0x10000 bound.1).2 = .ok ⟨0, 0x10000, 0x10000, paTarn + 0x10000, true, false, false⟩ := by decide +kernel
  generalize hu : xlNow (.cluster 0) (dcPart bound.1 0) 0x10000 bound.1 = r at w
  have q : paLoc r.1 (paTarn + 0x10000) = some (tarnLoc 0 0x10000) ∧ inOwnTarn r.1 0 (paTarn + 0x10000) = true ∧ r.1.net.hard = [] ∧
      regionDead r.1 (.column 0) = false ∧ memBytes r.1.mem.bytes (tarnLoc 0 0x10000) 64 = z 64 := by rw [← hu]; decide +kernel
  have y := farLoad_clear (src := .leadIo) (rq := 7) (pa := paTarn + 0x10000) (n := 64) (by decide) q.1 q.2.2.1 q.2.2.2.1 (by
    intro u o
    generalize u.net.turns = a, u.net.spineBytes = b, u.blocked = d at o
    rw [o, ← hu]
    set_option maxRecDepth 10000 in exact ⟨rfl, rfl, rfl, rfl⟩)
  rw [q.2.2.2.2] at y
  have p : Tlb.at ⟨0, 0x10000, 0x10000, paTarn + 0x10000, true, false, false⟩ 0x10000 = paTarn + 0x10000 := by decide
  exact ⟨_, by rw [c]; simp only [streamBytes, hu, w, p, q.1, q.2.1, y]; rfl⟩

/-! ### Links -/

/-- Port 0 as `p`; partition 0 runs. -/
def link (p : Port) : State := { busy with links := [(0, p)] }
/-- A whole message that waits, without a tag. -/
def msg (h : MsgHdr) (d : List Byte) : InMsg := ⟨(msgVc h.type).getD 0, false, 0, 5, h.bytes ++ d⟩
/-- Port 0 in state `st` with one message waiting. -/
def hearing (st : PortSt) (hs : Nat) (m : InMsg) : State := link { st := st, hs := hs, inbox := [m] }
/-- Tests of the lanes from `a` up to `b` that pass (R334): 17,361,112 codewords are the first number with 10¹¹ bits, and 1,999 corrected bits are
fewer than 2 in 10⁵ of them. -/
def tests (a b : Nat) : List LaneTest := ((List.range b).drop a).map fun l => ⟨l, 17361112, 1999, 0, 0, 0⟩
/-- The markers of 48 lanes of block `n`, with the request of a retrain on lane 3. -/
def marks (n : Nat) (ask : Bool) : List (Nat × Nat) := (List.range 48).map fun l => (l, laneMarker l l 0 n (ask && l == 3))
theorem test_hyp_training : (getPort (link { st := .down, named := true }) 0).st = .down ∧ (getPort (link { st := .down, named := true }) 0).named = true ∧
    portFit (link { st := .down, named := true }) 0 = true ∧ (∀ n ∈ [1, 2, 3, 4], (getPort (link { step := n }) 0).step = n) ∧
    portUnpowered (link { st := .down, named := true }) 0 = false ∧
    portUnpowered { link { st := .down, named := true } with dev := { busy.dev with failedRails := [.vio 1] } } 0 = true ∧
    portFit { link { st := .down, named := true } with dev := { busy.dev with failedRails := [.vio 1] } } 0 = true ∧
    serves (link { st := .active }) 0 = true ∧ serves (link { st := .retrain }) 0 = false ∧ (getPort (link { st := .securing }) 0).st = .securing := by decide
theorem test_hyp_ready : (∀ x ∈ [(52, 48, some (48, 0)), (47, 52, some (40, 1)), (39, 40, some (32, 2)), (31, 52, none)],
      widthFor (readyMask (tests 0 x.1)) (readyMask (tests 0 x.2.1)) = x.2.2) ∧
    (lanesOf (readyMask (tests 0 31))).length = 31 ∧
    (∀ t ∈ [LaneTest.mk 0 17361111 0 0 0 0, ⟨0, 17361112, 2000001, 0, 0, 0⟩, ⟨0, 17361112, 0, 0, 1, 0⟩, ⟨0, 17361112, 0, 0, 0, 1⟩],
      readyMask [t] = 0) ∧ readyMask (tests 0 1) = 1 := by decide +kernel
theorem test_hyp_aligned : aligned (getPort (link { step := 4, rxmap := 2 ^ 48 - 1 }) 0) (marks 7 false) = true ∧
    aligned (getPort (link { step := 4, rxmap := 2 ^ 48 - 1 }) 0) ((marks 7 false).drop 1) = false ∧
    aligned (getPort (link { step := 4, rxmap := 2 ^ 48 - 1 }) 0) ((marks 7 false).take 40 ++ (marks 8 false).drop 40) = false := by decide +kernel
/-- Port 0 ACTIVE with lanes 0 and 1 in its receive map and the lanes `rdy` ready. -/
def windowed (rdy : Nat) : State := link { st := .active, rxReady := rdy, rxmap := 3, winCorr := [(0, 8499999)] }
def counted (rdy : Nat) : Port := windowCounts [(0, 2), (1, 8500000)] [(1, 1), (2, 2)] (getPort (windowed rdy) 0)
theorem test_hyp_lane_errors : ∀ rdy ∈ [7, 6], (getPort (windowed rdy) 0).st = .active ∧ failedLanes (counted rdy) = [0, 2] ∧
    natBit (getPort (windowed rdy) 0).rxReady 0 = (rdy == 7) ∧ natBit (getPort (windowed rdy) 0).rxmap 0 = true ∧
    natBit (getPort (windowed rdy) 0).rxmap 2 = false := by decide +kernel
theorem test_hyp_marker : markerOk (getPort (link { st := .active, rxmap := 2 ^ 48 - 1 }) 0) 3 (laneMarker 3 3 0 9 true) = true ∧
    natBit (laneMarker 3 3 0 9 true) 46 = true ∧ natBit (laneMarker 3 3 0 9 false) 46 = false ∧
    markerOk (getPort (link { st := .active, rxmap := 2 ^ 48 - 1 }) 0) 3 (laneMarker 4 3 0 9 true) = false := by decide +kernel
/-- Port 0 in RETRAIN with every lane ready but those of `bad`, `n` replays in a row behind it. -/
def retraining (bad n : Nat) : State := link { st := .retrain, txReady := 2 ^ 52 - 1, rxReady := 2 ^ 52 - 1 - bad, replay := [⟨0, []⟩], replayRun := n }
/-- What a retrain gives that has tested 48 lanes of each direction. -/
def retrained (n : Nat) : Port := setLanes 48 0 (2 ^ 52 - 1) (2 ^ 52 - 1) (countTests (tests 0 48) (getPort (retraining 0 n) 0))
theorem test_hyp_retrain : (∀ n ∈ [14, 15], (getPort (retraining 0 n) 0).st = .retrain ∧ stillReady (getPort (retraining 0 n) 0).txReady (tests 0 48) = 2 ^ 52 - 1 ∧
      stillReady (getPort (retraining 0 n) 0).rxReady (tests 0 48) = 2 ^ 52 - 1 ∧ widthFor (2 ^ 52 - 1) (2 ^ 52 - 1) = some (48, 0) ∧
      mapTested (retrained n).txmap (tests 0 48) = true ∧ mapTested (retrained n).rxmap (tests 0 48) = true ∧
      aligned (retrained n) (marks 0 false) = true) ∧
    (∀ q ∈ [0, 1, 2, 3, 4, 5], (getChain (retraining 0 14) 0 q).st ≠ .running) ∧ (getPort (retraining 0 14) 0).replayRun < 15 ∧
    (lanesOf (stillReady (getPort (retraining (2 ^ 20 - 1) 0) 0).rxReady [⟨51, 0, 0, 0, 0, 0⟩])).length = 31 := by decide +kernel
/-- A retrain that completes: its width, its maps and its count are as the statement says, and the replay buffer goes again. -/
theorem test_retrain : (match exec (.retrainComplete 0 (tests 0 48) ⟨tests 0 48, marks 0 false⟩) (retraining 0 14) with
    | .next t => (getPort t 0).st == .active && (getPort t 0).width == 0 && (getPort t 0).txmap == 2 ^ 48 - 1 && (getPort t 0).retrains == 1 &&
        (getPort t 0).replayRun == 15 | _ => false) = true := by decide +kernel
def control (sub n : Nat) (d : List Byte) : InMsg := msg { type := mtControl, plen := n, csub := sub } d
theorem test_hyp_setup : (∀ x ∈ [(1, 0, 3, z 48), (1, 0, 3, leBytes 8 1 ++ z 40), (2, 1, 1, z 16), (3, 2, 1, z 16),
      (4, 3, 0, []), (4, 3, 1, z 16)],
      Waiting (hearing .securing x.2.1 (control x.1 x.2.2.1 x.2.2.2)) 0 0 mtControl (control x.1 x.2.2.1 x.2.2.2) [] ∧
      (parseHdr (control x.1 x.2.2.1 x.2.2.2).bytes).csub = x.1 ∧
      openMsg (getPort (hearing .securing x.2.1 (control x.1 x.2.2.1 x.2.2.2)) 0) (control x.1 x.2.2.1 x.2.2.2) = some x.2.2.2) ∧
    fieldAt (z 48) 0 8 ≠ busy.serial ∧ fieldAt (leBytes 8 1 ++ z 40) 0 8 = busy.serial := by
  unfold Waiting; decide
/-- A message without a tag opens to its payload, as long as its header says: 512 bytes for a whole fragment, 192 for a KEYX. -/
theorem test_hyp_payload : ∀ x ∈ [(2, 32, 512), (3, 12, 192)], ∃ d, openMsg (getPort (link {}) 0) (control x.1 x.2.1 (z x.2.2)) = some d ∧
    d.length = x.2.2 := by
  intro x h
  refine ⟨bytesAt (control x.1 x.2.1 (z x.2.2)).bytes 16 (16 * (parseHdr (control x.1 x.2.1 (z x.2.2)).bytes).plen), rfl, ?_⟩
  simp only [bytesAt, List.length_map, List.length_range]
  revert x; decide
/-- A message that says it has a tag, at a port that has no key. -/
def forged (h : MsgHdr) (d : List Byte) : InMsg := { msg h d with tagged := true }
theorem test_hyp_forged : (∀ x ∈ linkMessages, Waiting (hearing .active 4 (forged { type := x.2.2 } [])) 0 x.2.1 x.2.2 (forged { type := x.2.2 } []) [] ∧
      openMsg (getPort (hearing .active 4 (forged { type := x.2.2 } [])) 0) (forged { type := x.2.2 } []) = none ∧
      serves (hearing .active 4 (forged { type := x.2.2 } [])) 0 = true) ∧ (getPort (link { st := .active }) 0).inbox = [] ∧
    serves (link { st := .securing }) 0 = false ∧
    ∀ x ∈ setupMessages, openMsg (getPort (link {}) 0) (forged { type := mtControl, csub := x.2.1 } []) = none ∧
      openMsg (getPort (link {}) 0) (control x.2.1 0 []) = some [] ∧ x.2.2 ≠ 4 := by unfold Waiting; decide
/-- One line for core 0's PSP, for byte 0x10000 of partition 0's memory, or for a partition that does not run. -/
def req (t sp part a : Nat) : MsgHdr := { type := t, plen := if t = mtGet then 0 else 4, dpart := part, dspace := sp, addr := a, glen := if t = mtGet then 4 else 0 }
theorem test_hyp_requests : (∀ x ∈ [(mtPut, 1, 4), (mtGet, 1, 0), (mtRput, 2, 4)], ∀ y ∈ [(3, 0, 0x6FC0), (4, 0, 0x10000), (3, 1, 0x6000)],
      Waiting (hearing .active 4 (msg (req x.1 y.1 y.2.1 y.2.2) (z (16 * x.2.2)))) 0 x.2.1 x.1 (msg (req x.1 y.1 y.2.1 y.2.2) (z (16 * x.2.2))) [] ∧
      openMsg (getPort (hearing .active 4 (msg (req x.1 y.1 y.2.1 y.2.2) (z (16 * x.2.2)))) 0) (msg (req x.1 y.1 y.2.1 y.2.2) (z (16 * x.2.2))) =
        some (z (16 * x.2.2))) ∧ partServed busy 0 = true ∧ partServed busy 1 = false ∧ spmServed busy 0 0x6FC0 64 true = true ∧ inPsp 0x6FC0 64 = true ∧
    spmServed busy 0 0x6FD0 64 true = false ∧ inPsp 0x5FC0 64 = false := by unfold Waiting; set_option maxRecDepth 8000 in decide
theorem test_hyp_notify : noteOf (getPort (link {}) 0) 0 0 = false ∧ noteOf (getPort (link { notes := [⟨0, 0, true⟩] }) 0) 0 0 = true := by decide
/-- A port that awaits answers to requests 5 (a GET) and 6. -/
def awaiting (m : InMsg) (part : Nat) : State := link { st := .active, inbox := [m], reqs := [⟨5, part, true, 3, 0, 64⟩, ⟨6, part, false, 3, 0, 64⟩] }
theorem test_hyp_answers : (∀ x ∈ [(mtGetResp, 1, 5, 4), (mtAnswer, 0, 6, 0)], ∀ y ∈ [(0, 0), (0, 4), (6, 0)],
      Waiting (awaiting (msg { type := x.1, mtag := x.2.2.1, plen := x.2.2.2, status := y.2 } (z (16 * x.2.2.2))) y.1) 0 x.2.1 x.1
        (msg { type := x.1, mtag := x.2.2.1, plen := x.2.2.2, status := y.2 } (z (16 * x.2.2.2))) [] ∧
      takeReq (getPort (awaiting (msg { type := x.1 } []) y.1) 0) x.2.2.1 (x.1 == mtGetResp) ≠ none) ∧
    Waiting (hearing .active 4 (msg { type := mtBarrier, addr := 7 } [])) 0 0 mtBarrier (msg { type := mtBarrier, addr := 7 } []) [] ∧
    Waiting (hearing .active 4 (msg { type := mtTimesync, plen := 2 } (z 32))) 0 0 mtTimesync (msg { type := mtTimesync, plen := 2 } (z 32)) [] ∧
    fieldAt (z 32) 8 8 = 0 ∧ fieldAt (z 32) 16 8 = 0 := by unfold Waiting; decide
theorem test_hyp_steer : topOffset (link { st := .active, offset := some 1000001 }) = 1000001 ∧ topOffset (link { st := .active, offset := some 1000000 }) = 1000000 := by
  decide
/-- A flit before its CRC: a null one, or a data flit of sequence number `seq` whose first unit is `u` on VC0, other units empty. -/
def flitBody (data : Bool) (seq : Nat) (u : List Byte) : List Byte :=
  leBytes 12 (bit data + 2 * seq + 2 ^ 26 * (4 ^ 15 - 1 - (if data then 3 else 0))) ++ u ++ z (240 - u.length)
theorem test_crcBit (c : Nat) (h : c < 2 ^ 32) : crcBit c < 2 ^ 32 := by
  unfold crcBit; split
  · exact Nat.xor_lt_two_pow (by omega) (by decide)
  · omega
theorem test_crc (bs : List Byte) : crc32c bs < 2 ^ 32 := by
  have g : ∀ (l : List Byte) (c : Nat), c < 2 ^ 32 →
      l.foldl (fun c b => crcBit (crcBit (crcBit (crcBit (crcBit (crcBit (crcBit (crcBit (c ^^^ b.toNat))))))))) c < 2 ^ 32 := by
    intro l; induction l with
    | nil => intro c h; exact h
    | cons b l ih =>
      intro c h
      have hb : b.toNat < 2 ^ 32 := Nat.lt_trans b.isLt (by decide)
      exact ih _ (test_crcBit _ (test_crcBit _ (test_crcBit _ (test_crcBit _ (test_crcBit _ (test_crcBit _ (test_crcBit _ (test_crcBit _
        (Nat.xor_lt_two_pow h hb)))))))))
  exact Nat.xor_lt_two_pow (g bs _ (by decide)) (by decide)
theorem test_leNat4 (x : Nat) (h : x < 2 ^ 32) : leNat (leBytes 4 x) = x := by
  simp only [leBytes, leNat, BitVec.toNat_ofNat]; omega
theorem test_bytesAt_append (b c : List Byte) : bytesAt (b ++ c) b.length c.length = c := by
  apply List.ext_getElem
  · simp [bytesAt]
  · intro i h1 h2
    simp only [bytesAt, List.getElem_map, List.getElem_range]
    rw [List.getD_eq_getElem?_getD, List.getElem?_append_right (by omega)]
    simp [List.getElem?_eq_getElem h2]
/-- What FLIT_RECEIVE compares of a flit: the CRC of its first 252 bytes, and its last four. -/
theorem test_crc_fields (b c : List Byte) (h : b.length = 252) (l : c.length = 4) :
    (bytesAt (b ++ c) 0 256).take 252 = b ∧ fieldAt (bytesAt (b ++ c) 0 256) 252 4 = leNat c := by
  have w : bytesAt (b ++ c) 0 256 = b ++ c := by
    have e := test_bytesAt_append [] (b ++ c)
    have n : (b ++ c).length = 256 := by simp [h, l]
    rw [n] at e; exact e
  have t : bytesAt (b ++ c) 252 4 = c := by
    have e := test_bytesAt_append b c
    rw [h, l] at e; exact e
  rw [w, fieldAt, t, List.take_append_of_le_length (by omega), List.take_of_length_le (by omega)]
  exact ⟨rfl, rfl⟩
/-- Any 252 bytes pass with their CRC, and fail with some other four bytes. -/
theorem test_hyp_flit (b : List Byte) (h : b.length = 252) :
    crc32c ((bytesAt (withCrc b) 0 256).take 252) = fieldAt (bytesAt (withCrc b) 0 256) 252 4 ∧
    ∃ c, crc32c ((bytesAt (b ++ c) 0 256).take 252) ≠ fieldAt (bytesAt (b ++ c) 0 256) 252 4 := by
  constructor
  · have e := test_crc_fields b (leBytes 4 (crc32c b)) h rfl
    rw [withCrc, e.1, e.2, test_leNat4 _ (test_crc b)]
  · by_cases z : crc32c b = 0
    · have e := test_crc_fields b [1, 0, 0, 0] h rfl
      refine ⟨[1, 0, 0, 0], ?_⟩
      rw [e.1, e.2, z]; decide
    · have e := test_crc_fields b [0, 0, 0, 0] h rfl
      refine ⟨[0, 0, 0, 0], ?_⟩
      rw [e.1, e.2]; exact z
theorem test_hyp_flit_length : ∀ x ∈ [(false, 0, []), (true, 0, (control 4 0 []).bytes), (true, 1, []), (true, 0, z 16)],
    (flitBody x.1 x.2.1 x.2.2).length = 252 := by
  set_option maxRecDepth 4000 in decide
/-- The fields of those flits at a port that has taken none: in sequence or not, a unit that begins a message or breaks R346. -/
def headOf (data : Bool) (seq : Nat) : Nat := leNat ((flitBody data seq []).take 12)
theorem test_hyp_flit_head : linkUp (getPort (link { st := .active }) 0) = true ∧ (getPort (link { st := .retrain }) 0).st = .retrain ∧
    overspent (getPort (link { st := .active }) 0) = false ∧
    (∀ seq ∈ [0, 1], natBits (headOf true seq) 95 92 = 0 ∧ natBit (headOf true seq) 25 = false ∧ natBit (headOf true seq) 0 = true ∧
      natBits (headOf true seq) 12 1 = seq) ∧ ((getPort (link { st := .active }) 0).ack + 1) % 4096 = 0 ∧
    natBits (leNat (leBytes 12 (2 ^ 92))) 95 92 ≠ 0 := by decide
/-- The port as it stands when the flit of `u` reaches its units, in sequence. -/
def atUnits (u : List Byte) : Port := { takeAcks (headOf true 0) (rxLanes [] (flitBody true 0 u) (getPort (link { st := .active }) 0)).1 with
  ack := 0, rejecting := false, nak := false, rxFlits := 1 }
theorem test_hyp_flit_units : (takeFlit 0 (flitBody true 0 (control 1 3 []).bytes) (natBits (headOf true 0) 55 26) (List.range 15)
      (atUnits (control 1 3 []).bytes)).any (fun p => !overspent p) = true ∧
    takeFlit 0 (flitBody true 0 (z 16)) (natBits (headOf true 0) 55 26) (List.range 15) (atUnits (z 16)) = none ∧
    natBit (headOf true 0 + 2 ^ 25) 25 = true ∧ (getPort (link { st := .active }) 0).rxResid = [] := by decide +kernel
theorem test_hyp_replay : ∀ n ∈ [14, 15], linkUp (getPort (link { st := .securing, replay := [⟨0, []⟩], replayRun := n }) 0) = true ∧
    (getPort (link { st := .securing, replay := [⟨0, []⟩], replayRun := n }) 0).replay ≠ [] := by decide

/-- Port 0 with a chain of partition 0 in progress: `sent` bytes of its 64, flag 2 of core 0 at `v`. -/
def chainD (rep : Nat) (last : Bool) : ChainDesc := { len := 64, rspace := 3, lspace := 3, wcore := 0, wflag := 2, wcount := 3, last := last, rep := rep, next := 0x40 }
def chained (st : ChainSt) (d : ChainDesc) (sent v : Nat) : State := { link { st := .active, chains := [(0, { st := st, cur := some d, sent := sent })] } with
  cores := [(0, { flags := [(2, BitVec.ofNat 16 v)] })] }
theorem test_hyp_chain : (∀ v ∈ [2, 3], (getChain (chained .waiting (chainD 1 true) 0 v) 0 0).st = .waiting ∧
      (smapGet 0 (getCore (chained .waiting (chainD 1 true) 0 v) 0).flags 2).toNat = v) ∧
    (∀ x ∈ [(2, true), (1, true), (1, false)], (getChain (chained .running (chainD x.1 x.2) 64 0) 0 0).cur = some (chainD x.1 x.2) ∧
      iterDone (chained .running (chainD x.1 x.2) 64 0) 0 0 (chainD x.1 x.2) = true ∧
      iterDone (chained .running (chainD x.1 x.2) 63 0) 0 0 (chainD x.1 x.2) = false) := by decide

/-! ### Power, heat, pins -/

/-- Region 0 of stack 0 as `x`, and cluster 0 switching as `p`. -/
def region (x : Rgn) (p : CluPwr) : State := { busy with
  stks := [(0, { part := some 0, rgns := if x = {} then [] else [(0, x)] })], clusters := if p = {} then [] else [(0, { pwr := p })] }
theorem test_hyp_grants : orderOk 0x24 = true ∧ orderOk 0x06 = true ∧ classOrder 0x06 = [2, 1, 0] := by decide
/-- Whether a command completes in a state of which `p` holds. -/
def runs (i : Instr) (s : State) (p : State → Bool) : Bool := match exec i s with | .next t => p t | _ => false
/-- Region 0 at 700 mV with a change to point 3 at 725 mV pending. -/
def changing : State := region { op := 6, vset := 700, change := some ⟨3, 725⟩ } {}
theorem test_hyp_change : (getRgn changing (rgnDie 0) (rgnNo 0)).change = some ⟨3, 725⟩ ∧ awake changing = true ∧
    voltSteps 700 725 = [710, 720, 725] ∧ voltSteps 700 675 = [690, 680, 675] ∧ (700 : Nat) ≠ 725 ∧ [710, 720, 725][1]? = some 720 ∧
    (getRgn (region {} {}) (rgnDie 0) (rgnNo 0)).change = none := by decide
/-- R361, R362: every step written; a third step that fails twice again leaves 720 mV and the old point. -/
theorem test_change : runs (.opVoltageSettled 0 none) changing (fun t => (getRgn t 0 0).op == 3 && (getRgn t 0 0).vset == 725 &&
      t.side.avsOut == [(0, 0, 710), (0, 0, 720), (0, 0, 725)]) = true ∧
    runs (.opVoltageSettled 0 (some 2)) changing (fun t => (getRgn t 0 0).op == 6 && (getRgn t 0 0).vset == 720 &&
      t.side.avsOut == [(0, 0, 710), (0, 0, 720), (0, 0, 725), (0, 0, 725), (0, 0, 725)]) = true := by decide +kernel
/-- A reading of every rail of a class at its setpoint, and one 10% below it by less than a millivolt. -/
def rails (i : Nat) : List RailReading := (classRails busy i).map fun e => ⟨e.1, e.2, (railSpec busy e.1 e.2).1, 100, false, false⟩
theorem test_hyp_rails : (∀ i ∈ [0, 1, 2], (classRails busy i).map (readingOf (rails i)) = rails i ∧ rails i ≠ [] ∧ (rails i).any (readingBad busy) = false ∧
      ((classRails busy i).map (readingOf [])).any (readingBad busy) = true) ∧ readingBad busy ⟨0, 4, 675, 10500, false, false⟩ = false ∧
    (∀ x ∈ [RailReading.mk 0 4 674 0 false false, ⟨0, 4, 826, 0, false, false⟩, ⟨0, 4, 750, -1, false, false⟩, ⟨0, 4, 750, 10501, false, false⟩,
      ⟨0, 4, 750, 0, true, false⟩, ⟨0, 4, 750, 0, false, true⟩], readingBad busy x = true) ∧
    2 * classMeas (rails 1) < (getClass ({ busy with power := { busy.power with memory := { leak := 100000 } } } : State).power 1).leak := by decide +kernel
/-- R378: 24 regions, 18 rails of the stacks and 9 of the ports; 10 A at 750, 1,050 and 1,800 mV make 36 W a stack. -/
theorem test_rails : (List.range 3).map (fun i => (classRails busy i).length) = [9, 18, 24] ∧ classMeas (rails 1) = 216 := by decide +kernel
theorem test_hyp_currents : (∀ x ∈ [({ trip := 1 }, 11501), ({ hi := 49 }, 10501), ({ hi := 49 }, 11500), ({ hi := 48 }, 10501), ({ hi := 49 }, 11501),
      ({ ocs := 1, lo := 499 }, 10000), ({ ocs := 1, lo := 498 }, 10000), ({ op := 1, topLost := true, hi := 49, change := some ⟨0, 800⟩ }, 10501),
      ({}, 10500)], getRgn (region x.1 {}) (rgnDie 0) (rgnNo 0) = x.1 ∧ (x.1 : Rgn).ocs ≠ 2 ∧ (x.1 : Rgn).failed = false ∧ awake (region x.1 {}) = true) := by
  decide
theorem test_hyp_droop : (∀ n ∈ [0, 1, 2], (getClu (region {} { st := .on, droop := n }) 0).pwr.droop = n) ∧ dcOk 0 = true ∧ dcOk 192 = false ∧
    (getRgn (region { slack := true } {}) (rgnDie 0) (rgnNo 0)).slack = true ∧ (getRgn (region {} {}) (rgnDie 0) (rgnNo 0)).slack = false := by decide
/-- Cluster 0 of region 0 as `p`, with the region's last current. -/
def switching (n : Nat) (p : CluPwr) : State := region { amps := n } p
theorem test_hyp_switching : (∀ x ∈ [(9760, 3), (9761, 3), (0, 4)], (getClu (switching x.1 { st := .turningOn, stages := x.2 }) 0).pwr.st = .turningOn ∧
      (getRgn (switching x.1 { st := .turningOn, stages := x.2 }) (dcDie 0) (dcRgn (switching x.1 { st := .turningOn, stages := x.2 }) 0)).amps = x.1 ∧
      turnOnPending (switching x.1 { st := .turningOn, stages := x.2 }) 0 0 = true) ∧
    (∀ x ∈ [(8500, false), (8501, false), (9760, true), (9761, true)], (getClu (switching x.1 { due := true, doubled := x.2 }) 0).pwr.due = true ∧
      (getRgn (switching x.1 { due := true, doubled := x.2 }) (dcDie 0) (dcRgn (switching x.1 { due := true, doubled := x.2 }) 0)).amps = x.1 ∧
      cluPowered (switching x.1 { due := true, doubled := x.2 }) 0 = true ∧ turningOn (switching x.1 { due := true, doubled := x.2 }) 0 0 = []) ∧
    turnOnPending (switching 0 { due := true, stageHeld := true }) 0 0 = true ∧ turnOnPending (switching 0 { due := true }) 0 0 = false := by decide
/-- R369: a stage waits while the region's current is above 976 A, and stretches it; the stretch is kept while the turn-on is held. -/
theorem test_stage : runs (.clusterTurnOnStage 0) (switching 9761 { due := true, doubled := true })
      (fun t => (getClu t 0).pwr.stageHeld && (getClu t 0).pwr.st == .off && (getRgn t 0 0).turnOnStretch == 1) = true ∧
    runs (.turnOnStretchRelease 0) (region { turnOnStretch := 1 } { due := true, stageHeld := true }) (fun t => (getRgn t 0 0).turnOnStretch == 1) = true := by
  decide
/-- Four clusters of region 0 turn on. -/
def turning4 : State := { region {} {} with clusters := (0, { pwr := { due := true } }) :: (List.range 4).map fun i => (i + 1, { pwr := { st := .turningOn, stages := 1 } }) }
theorem test_hyp_switching_full : 4 ≤ (turningOn turning4 0 0).length ∧ (getClu turning4 0).pwr.due = true ∧ (getClu turning4 0).pwr.st = .off ∧
    (getClu (region {} { waitLoad := true }) 0).pwr.waitLoad = true ∧ (getClu (region {} { turningOff := true, stages := 1 }) 0).pwr.turningOff = true := by decide
theorem test_hyp_regulator_boot : ∀ st ∈ [DevSt.boot, .selftest], awake { up with dev := { up.dev with st := st } } = true ∧
    railExists { up with dev := { up.dev with st := st } } (.vcore 5 3) = true ∧ Rail.vcore 5 3 ∉ up.dev.failedRails := by decide
theorem test_hyp_regulator : (∀ rail ∈ [Rail.vcore 5 3, .vtarn 5, .vmem 5, .vpp 5, .vio 0, .vio 3, .serdes 2 1], railExists busy rail = true ∧ rail ∉ busy.dev.failedRails) ∧
    busy.dev.st ≠ .safeTalk ∧ railExists busy (.vcore 6 0) = false ∧ railExists busy (.vio 4) = false ∧
    Rail.vio 0 ∈ ({ busy with dev := { busy.dev with failedRails := [.vio 0] } } : State).dev.failedRails := by decide
theorem test_hyp_sensors : layerReading [] 0 0 = none ∧ layerReading [⟨0, 0, none⟩] 0 0 = some none ∧ layerReading [⟨0, 0, some (-161)⟩] 0 0 = some none ∧
    layerReading [⟨0, 0, some (-160)⟩, ⟨0, 0, some 1200⟩] 0 0 = some (some 1200) ∧ layerReading [⟨0, 0, some 1201⟩] 0 0 = some none := by decide
/-- One layer of stack 0's site 0. -/
def sensing (x : Sensor) : State := { busy with stks := [(0, { part := some 0, sites := [(0, { layers := [(0, x)] })] })] }
def siteAt (x : Site) : State := { busy with stks := [(0, { part := some 0, sites := [(0, x)] })] }
theorem test_hyp_checked : (∀ n ∈ [1, 2], (getLayer (sensing { fails := n }) 0 0 0).fails = n ∧ (getLayer (sensing { fails := n }) 0 0 0).distrusted = false) ∧
    (getLayer (sensing { passes := 999, distrusted := true }) 0 0 0).passes = 999 ∧ (getLayer (sensing { passes := 999, distrusted := true }) 0 0 0).distrusted = true ∧
    (∀ n ∈ [99, 100], (getSite (siteAt { hot := [(1, 50), (2, n)] }) 0 0).hot = [(1, 50), (2, n)]) ∧ up.side.thermTrip = false ∧
    ({ up with side := { up.side with thermTrip := true } } : State).side.thermTrip = true ∧ tripAt ≤ 920 ∧ (919 : Int) < tripAt := by decide
/-- R385, R393: 115 °C is 920 eighths; a compute sensor trips, another layer's does not. -/
theorem test_hyp_trips : sampleTrips [⟨3, 0, some 920⟩] = true ∧ sampleTrips [⟨3, 0, some 919⟩, ⟨3, 1, some 1000⟩, ⟨3, 0, none⟩] = false ∧
    runs .thermalTrip busy (fun t => t.side.thermTrip && t.dev.st == .salvage && (getPart t 0).st == .salvage) = true := by decide +kernel
theorem test_hyp_sideband : smbAnswers up = true ∧ smbAnswers State.reset = false ∧ natBit (2#16).toNat 1 = true ∧ natBit (0#16).toNat 1 = false ∧
    (getStk { up with stks := [(0, { keepWarm := true })] } 0).keepWarm = true := by decide
/-- A window of stack 0: `n` checks of 60 °C in all, a power from `lo` to 1,100 W with the mean 1,050 W. -/
def window (lo : Nat) (x : Stack) : State := { up with
  side := { up.side with inlet := some 480 }
  stks := [(0, { x with winTemp := 480 * 10, winChecks := 10, winPower := 10500, winTicks := 10, winLow := lo, winHigh := 1100 })] }
theorem test_hyp_window : winValid (window 1000 {}) (getStk (window 1000 {}) 0) = true ∧ winValid (window 994 {}) (getStk (window 994 {}) 0) = false ∧
    winValid (window 999 {}) (getStk (window 999 {}) 0) = false ∧ winMean (getStk (window 1000 {}) 0) = 1050 ∧
    thetaOfMean 4800 10 480 1050 = 2857 ∧ 115 * 2484 ≤ 100 * 2857 ∧ ¬ 115 * 2485 ≤ 100 * 2857 ∧ 100 * 2857 < 110 * 2598 ∧
    (∀ b ∈ [2484, 2598], (getStk (window 1000 { thetaBoot := b, degWin := 5, resWin := 5, degraded := b == 2598 }) 0).thetaBoot = b) := by decide
/-- R396: the sixth window at 115% of the baseline marks the stack degraded, the sixth below 110% clears it. -/
theorem test_degraded : runs (.thetaWindow 0 true) (window 1000 { thetaBoot := 2484, degWin := 5 }) (fun t => (getStk t 0).degraded) = true ∧
    runs (.thetaWindow 0 true) (window 1000 { thetaBoot := 2598, resWin := 5, degraded := true }) (fun t => !(getStk t 0).degraded) = true := by decide
/-- What a boot finds where nothing is wrong. -/
def well : BootSample := { cut := none, fails := none, rail := none, helper := 0, sfdp := false, flash := [], badColumns := [], badCores := [], deadPorts := []
                           badSensors := [], slack := [], load := [], plates := [], badHops := [], payload := 1, readReq := 2 }
theorem test_hyp_boot : well.cut = none ∧ (State.reset.side.vaux = true ∧ State.reset.side.pwrgd = false) ∧
    (({ State.reset with side := { vaux := true, pwrgd := true, pkgRstLow := true } } : State).side.pkgRstLow = true ∧ State.reset.dev.held = true) ∧
    (up.side.vaux = true ∧ up.dev.held = false ∧ up.dev.st ≠ .boot ∧ up.dev.st ≠ .selftest) ∧
    (({ up with dev := { up.dev with resetDue := true } } : State).dev.resetDue = true) ∧ up.side.pwrgd = true ∧
    ({ up with dev := { up.dev with st := .selftest } } : State).dev.st = .selftest := by decide
def severe : LogEnt := ⟨4, 0, 0x0201, 2, 0xFF, []⟩
theorem test_hyp_persist : fwWriting { up with dev := { up.dev with persistQ := [severe] } } = false ∧
    ({ up with dev := { up.dev with persistQ := [severe] } } : State).dev.persistQ = severe :: [] ∧ up.dev.persistQ = [] ∧ up.dev.logCopies = [] ∧
    ({ up with dev := { up.dev with persistQ := [severe] } } : State).dev.persistLost = 0 := by decide
theorem test_hyp_package_reset : smapWf ({} : Stack) busy.stks = true ∧ smapWf ({} : MDie) (getStk busy 0).mdie = true := by decide

/-! ### Further clauses -/

/-- A certificate of the part that the neighbour is, with the fields that the device uses: its key twice the base point, signed by the key that is the
base point (R426, R427). -/
def peerCert : List Byte := beBytes 288 0x308201123081A4A003020102020101300030003000302C311930170603550405131030303030303030303030303030303030310F300D060355040B0C064B4E2D36432D30663000036200042282BC382A2F4DFCB95C3495D7B4FD590AD520B3EB6BE4D6EC2F80C4E0F70DF87C4BA74A09B553EBB427B58DF9D59FCA0EDDA83773AC68735768D14A24F37A57CE9BEDBC170921CE4D89DD051728FC3EB4B4EA69AB64FC288F1B29502B6E1D303000036700306402307B63205BF00DDAE73B17452B6A27EBF53DF581348C6949F83EE1B6FCC7463BBE3C11EF6596A3B8897D7CC85B3035F11F02307AA4EECA984BA82B2AE345DD415E01BCEDE54596EF135D4872ADB68270506CB07C49AB7B62368A02F4A2FA5E4F33666400000000000000000000
/-- The certificate as its fields are read: what is signed, the signature, the key, and the subject's two attributes. -/
def peerFields : Cert := ⟨beBytes 167 0x3081A4A003020102020101300030003000302C311930170603550405131030303030303030303030303030303030310F300D060355040B0C064B4E2D36432D30663000036200042282BC382A2F4DFCB95C3495D7B4FD590AD520B3EB6BE4D6EC2F80C4E0F70DF87C4BA74A09B553EBB427B58DF9D59FCA0EDDA83773AC68735768D14A24F37A57CE9BEDBC170921CE4D89DD051728FC3EB4B4EA69AB64FC288F1B29502B6E1D30,
  beBytes 48 0x7B63205BF00DDAE73B17452B6A27EBF53DF581348C6949F83EE1B6FCC7463BBE3C11EF6596A3B8897D7CC85B3035F11F ++
    beBytes 48 0x7AA4EECA984BA82B2AE345DD415E01BCEDE54596EF135D4872ADB68270506CB07C49AB7B62368A02F4A2FA5E4F336664,
  beBytes 48 0x2282BC382A2F4DFCB95C3495D7B4FD590AD520B3EB6BE4D6EC2F80C4E0F70DF87C4BA74A09B553EBB427B58DF9D59FCA ++
    beBytes 48 0x0EDDA83773AC68735768D14A24F37A57CE9BEDBC170921CE4D89DD051728FC3EB4B4EA69AB64FC288F1B29502B6E1D30,
  [([0x55, 0x04, 0x05], ascii "0000000000000000"), ([0x55, 0x04, 0x0B], ascii "KN-6C-")]⟩
theorem test_cert : chainCerts peerCert = [peerFields] := by decide +kernel
theorem test_cert_digest : sha384 peerFields.tbs = beBytes 48 0x67D28D81359CB07236351CEE090BD762768ADE86537C772DFA10FE1DDDA6E4AB69905C5D2480226F24E3F4BCD45FDCA8 := by decide +kernel
theorem test_cert_signed : signedBy pointG peerFields = true := by unfold signedBy; rw [test_cert_digest]; decide +kernel
theorem test_hyp_cert (k : Config.rootKey = pointG) (h : Config.rootHash = bytesAt (sha384 pointG) 0 48) :
    peerChainOk peerCert 0 = true ∧ peerChainOk peerCert 1 = false := by
  have e : chainSigned [peerFields] = true := by unfold chainSigned; rw [k, h, test_cert_signed, Bool.and_true, beq_self_eq_true]
  unfold peerChainOk chainNames deviceCert
  rw [test_cert, e]; decide +kernel
theorem test_hyp_cert_bad : peerChainOk (peerCert.drop 16) 0 = false := by decide +kernel
/-- A KEYX of the base point that the key of that certificate signed, for two HELLOs of zeros and no chain of the part's own (R348). -/
def keyxData : List Byte := pointG ++ beBytes 48 0x0D3EC4DFCE2647725100DABEA7B5F59F465848A4B4FBB6080AC96DDF237F84F4FBC1247651C2770D2CEBAB9FD2412DFB ++
  beBytes 48 0x2A4A6CC09E7A40C448AC8FFBE67140491FBC821C9452ED3420B8BB5373A264B0DC4ECB65F7AB94B8DF30249DCD1B7821
theorem test_keyx_digest : keyxDigest (z 48) (z 48) peerCert (certPadded (chainBytes busy)) (bytesAt keyxData 0 96) =
    beBytes 48 0xB8F696037C16B4F0C95D1A6E30CA562F11FDF9457BA735F48E08CCE2FB2CED8A5607B01132D4F98202195FD55D06FCAF := by decide +kernel
theorem test_hyp_keyx : keyxData.length = 192 ∧ onCurve (bytesAt keyxData 0 96) = true ∧
    ecdsaOk (chainKey peerCert) (keyxDigest (z 48) (z 48) peerCert (certPadded (chainBytes busy)) (bytesAt keyxData 0 96)) (bytesAt keyxData 96 96) = true := by
  have e : chainKey peerCert = peerFields.key := by unfold chainKey deviceCert; rw [test_cert]; rfl
  rw [test_keyx_digest, e]; decide +kernel
theorem test_hyp_keyx_bad : onCurve (bytesAt (z 192) 0 96) = false := by decide +kernel
/-- More credit spent than granted: VC0 has room for its units and one step more. -/
theorem test_hyp_overspent : overspent (getPort (link { st := .active, rxUsed := [(0, vcUnits 0 + 1)] }) 0) = true ∧
    overspent (getPort (link { st := .active, rxUsed := [(0, vcUnits 0)] }) 0) = false := by decide
/-- R263: two symbol errors of a word are found, three are not. -/
theorem test_decoder : memLocate (errs 2) = some (errs 2) ∧ memLocate (errs 3) = none := by decide +kernel
theorem test_hyp_decoder_more : memLocate (errs 5 ++ []) = none ∧ 4 ≤ (errs 5).length + bit ([].contains 0) ∧ State.reset.stuckMem = [] := by decide +kernel
theorem test_hyp_scrub : (∀ d ∈ [(0, 32), (4, 4)], memPowered (word [] []) 0 = true ∧
      (∃ a ∈ nextWord d.2 (scrubAt (word [] []) 0 d.1) (scrubGroups (word [] []) 0 d.1), ∃ l ∈ paLoc (word [] []) (a * 128),
        bankHeld (word [] []) l = false)) ∧ memPowered { up with dev := { up.dev with st := .safeTalk } } 0 = false := by decide +kernel
/-- A packet of a core that was reset while it was in flight. -/
def staleAt (p : Pkt) : State := atOwner {} { p with stale := true }
theorem test_hyp_stale : atCore (staleAt (wPkt 4)) 3 .write = some (0, { wPkt 4 with stale := true }) ∧
    atCore (staleAt (pkt .readReq (.core 1) 0 64)) 3 .readReq = some (0, { pkt .readReq (.core 1) 0 64 with stale := true }) := by decide
/-- A supply region that has stopped, with core 1 in it. -/
def deadRegion : State := { signalling 1 0 with stks := [(0, { part := some 0, rgns := [(0, { failed := true })] })] }
theorem test_hyp_region : regionDead deadRegion (.core 1) = true ∧ regionDead (signalling 1 0) (.core 1) = false ∧ regionDead busy (.ctrl 0) = false ∧
    deadRegion.net.hard = [] ∧ regionDead busy (.column 0) = false ∧ regionDead busy (unitEp .leadIo) = false ∧ Reaches busy 0 := by
  unfold Reaches; decide
theorem test_hyp_drain_accept : inDrain { spring {} with parts := [(0, { st := .draining })] } 0 = true ∧ inDrain (spring {}) 0 = false ∧
    Fitted (spring {}) := by unfold Fitted; decide
/-- The step that the permit would start, with nothing or the DMA engine waiting for its bank. -/
def permits (w : Option Nat) : State := { spring { seqs := [sseq (addDesc 8 0x10000) false] } with
  clusters := [(0, { dcOn with spr := { seqs := [sseq (addDesc 8 0x10000) false] }, dma := { waits := w } })] }
theorem test_hyp_grant_waits : ((readyStep (permits none) 0 0 0 (sseq (addDesc 8 0x10000) false)).map (accessWaits (permits none) 0)) = some false ∧
    ((readyStep (permits none) 0 0 0 (sseq (addDesc 8 0x10000) false)).bind fun t => (t.banks.find? fun _ => true).map fun b =>
      (List.range 64).any fun i => accessWaits (permits (some (dramLoc 0 0 (i * 2048)))) 0 t && dramBank (dramLoc 0 0 (i * 2048)) == b) = some true := by
  decide +kernel
/-- Two apertures with a command each: their turns, of commands (R291) and of chunks (R323). -/
def twoAps (st : Bool) : State := inSession { busy with
  aps := [(1, { en := true, part := some 0, cur := some { cmdOf 0x50 (tp 3 16) with started := st } }),
    (2, { en := true, part := some 0, cur := some { cmdOf 0x50 (tp 3 16) with started := st } })] }
theorem test_hyp_turns : myTurn (twoAps false) 1 = true ∧ myTurn (twoAps false) 2 = false ∧ myTurn (takeTurn 1 (twoAps false)) 2 = true ∧
    nextInTurn (twoAps true).pcie.chunkTurn (chunkWaits (twoAps true)) = some 1 ∧ (twoAps true).pcie.d3hot = false ∧
    (twoAps true).pcie.maxPayload % 64 = 0 ∧ 0 < (twoAps true).pcie.maxPayload ∧ hostActs { busy with pcie := { d3hot := true } } = true := by decide
theorem test_hyp_msix_age : (getAp (onAp { ap1 with unsignalled := 1, modn := 2 }) 1).unsignalled < (getAp (onAp { ap1 with unsignalled := 1, modn := 2 }) 1).modn ∧
    (getAp (onAp { ap1 with unsignalled := 2, modn := 2 }) 1).modn ≤ (getAp (onAp { ap1 with unsignalled := 2, modn := 2 }) 1).unsignalled ∧
    (getAp (onAp ap1) 1).unsignalled = 0 ∧ 0 < (getAp (onAp { ap1 with unsignalled := 1, mask := true }) 1).unsignalled := by decide
/-- A reset past its clearing, with a cluster still to be switched on or none. -/
def clearedAt (why : ResetWhy) (on : Bool) : State := { busy with
  parts := [(0, { st := .running, resetting := some why, cleared := true })]
  clusters := if on then [(0, { pwr := { due := true } })] else [(0, dcOn)] }
theorem test_hyp_cleared : ∀ w ∈ [ResetWhy.command 1, .session, .sessionEnd 1, .destroy 1], ∀ on ∈ [false, true],
    (getPart (clearedAt w on) 0).resetting = some w ∧ (getPart (clearedAt w on) 0).cleared = true ∧ switchingOn (clearedAt w on) 0 = on := by decide +kernel
theorem test_hyp_in_reset : (getClu { busy with clusters := [(0, { dcX true with pwr := { inReset := true } })] } 0).pwr.inReset = true ∧
    cluWritable { busy with clusters := [(0, { dcX true with pwr := { inReset := true } })] } 0 = false ∧ busy.net.hard = [] := by decide
/-- Column 0's DMA engine copies the first bytes of its DRAM to its slice; a spring step holds their bank or not. -/
def toSlice : DmaDesc := { dmaParse (dmaBytes 0 1) with dst := 0x20000, dspace := 4 }
def dmaHeld (held : Bool) : State := { dmaAt {} [] 0 with
  stks := [(0, { part := some 0, clsize := 12 })]
  clusters := [(0, { dcX true with
    xlat := { tlb := [⟨0, 0x10000, 0x10000, 0, true, false, false⟩, ⟨0, 0x20000, 0x10000, paTarn + 0x10000, true, false, false⟩] }
    dma := { st := .running, cur := some toSlice }
    spr := { running := if held then [⟨0, 0, 0, 0, List.range 16, [], false⟩] else [] } })] }
theorem test_hyp_dma_held : (dmaCopy 0 toSlice 0 1 (dmaHeld true)).1.blocked = some (.bank 0 (.ctrl 0)) ∧
    (dmaCopy 0 toSlice 0 1 (dmaHeld false)).1.blocked = none ∧ (dmaCopy 0 toSlice 0 1 (dmaHeld false)).2 = 0 := by decide +kernel

/-! ### Clauses under further conditions -/

/-- A barrier that waits with its home in cluster 256, in a supply region that runs or has stopped. -/
def homeAt (dead : Bool) : State := { atBar [{ bar8 [1] with home := 256 }] with
  stks := [(0, { part := some 0 }), (1, { part := some 0, rgns := if dead then [(0, { failed := true })] else [] })] }
theorem test_hyp_arrival_crosses : ∀ dead ∈ [false, true], (crossNow .control (.core 0) (.ctrl 256) 0 (homeAt dead)).2 = !dead ∧
    (getCore (homeAt dead) 0).hold = some (.bar 0 15 0) ∧ (getClu (homeAt dead) (lciDc 0)).pwr.st = .on ∧
    ((homeAt dead).bars.find? fun b => b.scope == 0 && b.place == barPlace (homeAt dead) 0 0 && b.mask == 15 &&
      !b.arrived.contains 0 && b.parts.contains 0).map (·.home) = some 256 := by
  intro dead h
  rw [(crossNow_clear .control (.core 0) (.ctrl 256) 0 rfl).2]
  revert dead; decide
theorem test_hyp_release_crosses : arrivedBoth.net.hard = [] ∧ arrivedBoth.net.pkts = [] ∧ ∀ c ∈ (bar8 [0, 1]).arrived, regionDead arrivedBoth (.core c) = false := by
  decide
/-- QNT and SCL in every form: a tile of each target format, and entries loaded, stored and ended. -/
theorem test_hyp_quant : (∀ f ∈ [fmBf16, fmSb4, fmMx4, fmMx8e4, fmMx8e5],
      refusal (with0 (front (mw ocQnt 0 0 1 2 0xA 0) [ds 2 8 0 4 16 16, ds 2 8 0x400 4 16 16, ds 2 f 0x800 4 32 16])) 0
        (coreArgs (front (mw ocQnt 0 0 1 2 0xA 0) [ds 2 8 0 4 16 16, ds 2 8 0x400 4 16 16, ds 2 f 0x800 4 32 16]) (mw ocQnt 0 0 1 2 0xA 0)) = none) ∧
    ∀ m ∈ [0, 1, 2], mwSub (mw ocScl 0 0 0 0 m 0x40) % 4 = m ∧ natBits (mwImm (mw ocScl 0 0 0 0 m 0x40)) 12 6 = 1 := by decide
theorem test_hyp_partial : coverUnits (fun _ => 8) 0xFFF8 ((eight.take 4).map some) = none ∧
    coverUnits pageUnit 0x7100 ((eight.take 2).map some) = none ∧ busy.net.hard = [] ∧ regionDead busy (.core 0) = false ∧
    (getClu busy (lciDc 0)).pwr.st = .on := by decide
/-- An LPB of no iterations, a fifth open loop, an LPE without a loop, an END within one, and a macro-op of a skipped body. -/
def loops (n : Nat) : List SeqLoop := List.replicate n ⟨0x10000, 2⟩
def skipping (o n : Nat) : State := updSeq (stream 0x10000 (unit64 (mw o 0 0 0 0 0 0)) [] 0) 0 0 fun q => { q with skip := n }
theorem test_hyp_loops : (∀ x ∈ [(ocLpb, 0, 0), (ocLpb, 2, 3), (ocLpb, 2, 4), (ocLpe, 0, 0), (ocEnd, 0, 1)],
      awake (stream 0x10000 (unit64 (mw x.1 0 0 0 x.2.1 0 0)) (loops x.2.2) 0) = true ∧
      mwOp (seqWord (getSeq (stream 0x10000 (unit64 (mw x.1 0 0 0 x.2.1 0 0)) (loops x.2.2) 0) 0 0)) = x.1 ∧
      mwCount (seqWord (getSeq (stream 0x10000 (unit64 (mw x.1 0 0 0 x.2.1 0 0)) (loops x.2.2) 0) 0 0)) = x.2.1 ∧
      (getSeq (stream 0x10000 (unit64 (mw x.1 0 0 0 x.2.1 0 0)) (loops x.2.2) 0) 0 0).loops.length = x.2.2) ∧
    ∀ o ∈ [ocLpb, ocLpe, ocNop, 5], ∀ n ∈ [1, 2], runs (.seqIssue 0 0)
      (skipping o n)
      (fun t => (getSeq t 0 0).pc == 0x10008 && (getSeq t 0 0).skip == (if o = ocLpb then n + 1 else if o = ocLpe then n - 1 else n)) = true := by
  decide
/-- The owner with half 0 of its scratchpads down, where its window lies: RUNNING or idle. -/
def halfDown (st : CoreSt) : State := { atOwner { isOpen := true, scope := 2 } (wPkt 64) with
  clusters := [(0, { dcOn with spmPwr := 1 })], cores := [(0, { owner { isOpen := true, scope := 2 } with st := st })] }
theorem test_hyp_half_down : linesDown (halfDown .running) 0 (linesOf 0x40 64) = !linesDown (atOwner {} (wPkt 64)) 0 (linesOf 0x40 64) ∧
    (∀ st ∈ [CoreSt.running, .idle], (getCore (halfDown st) 0).st = st ∧ coreLive (halfDown st) 0 = true) := by decide
/-- A write of the host to a core with no window that reaches it, one that runs and one that does not. -/
theorem test_hyp_host_write : (getCore (with0 {}) 0).st ≠ .running ∧ linesDown (with0 {}) 0 (linesOf 0x40 64) = false ∧
    mustHold (with0 {}) 0 0x40 64 [] .leadIo = false ∧ (getCore (with0 {}) 0).spmFlips = [] ∧ (getCore (with0 { st := .running }) 0).st = .running ∧
    ∀ w, w < 4 → (getWin (getCore (with0 { st := .running }) 0) w).isOpen = false ∧ (getWin (getCore (with0 { st := .running }) 0) w).held = false ∧
      (getWin (getCore (with0 { st := .running }) 0) w).closing = false := by decide
/-- A sequence with a step that runs, one that is suspended, or both. -/
def steps2 (a b : Bool) : State := spring { seqs := [sseq (addDesc 8 0x10000) false], running :=
  (if a then [sstep] else []) ++ if b then [{ sstep with mdie := 1, suspended := true }] else [] }
theorem test_hyp_ending : (∃ t ∈ (getSpr (steps2 true true) 0).running, t.seq = 0 ∧ t.suspended = false) ∧
    (∀ t ∈ (getSpr (steps2 false true) 0).running, t.seq = 0 → t.suspended = true) := by decide
/-- A packet of STATUS that passes under the session ⟨[1]⟩ of aperture 1. -/
def sealed : List Byte :=
  let h := leBytes 2 2 ++ [1, 0] ++ leBytes 2 3 ++ [0, 0] ++ leBytes 4 7 ++ leBytes 4 9 ++ z 16
  h ++ (gcmSeal (sessKey ⟨[1]⟩ 1 0) (gcmNonce 0 0 1 0) h []).2
theorem test_hyp_open : openPacket ⟨[1]⟩ 1 0 sealed 3 = some [] ∧ fieldAt sealed 4 2 = 3 ∧ fieldAt sealed 0 2 = 2 := by decide +kernel
theorem test_hyp_open_check : check3 (updAp (updAp (inSession (onAp ap1)) 1 fun k => { k with pktCount := k.pktCount + 1 }) 1 fun k => { k with authRun := 0 })
    1 (leBytes 2 2 ++ [1, 0] ++ leBytes 2 3 ++ [0, 0] ++ leBytes 4 7 ++ leBytes 4 9 ++ z 32) 7 [] = none := by decide
/-- An aperture of no partition takes IDENTITY and STATUS whatever their parameters. -/
theorem test_hyp_unassigned : ∀ op ∈ [1, 2, 3], apPart (onAp { ap1 with part := none }) 1 = none ∧ apSession (onAp { ap1 with part := none }) 1 = none ∧
    fieldAt (raw op 2).bytes 0 2 = op ∧ fieldAt (raw op 2).bytes 8 4 = 7 ∧ lenOk 2 = true := by decide
theorem test_hyp_function_reset : apSession (inSession (onAp ap1)) 1 ≠ none ∧ apSession (onAp ap1) 1 = none ∧
    (∀ q, apPart (inSession (onAp ap1)) 1 = some q → q < 6) := by
  refine ⟨by decide, by decide, ?_⟩
  intro q h; have e : apPart (inSession (onAp ap1)) 1 = some 0 := by decide
  rw [e] at h; cases h; decide
theorem test_hyp_send_block : Fresh (cmdOf 0x11 (z 24)) ∧ apHeld (doing 1 0x11 (z 24) busy) 1 = false ∧ (doing 1 0x11 (z 24) busy).pcie.d3hot = false ∧
    (∀ b, b ≠ 1 → chunkWaits (doing 1 0x11 (z 24) busy) b = false) := by
  refine ⟨⟨rfl, rfl, rfl, rfl, rfl⟩, by decide, rfl, ?_⟩
  intro b h
  have e : getAp (doing 1 0x11 (z 24) busy) b = {} := by
    simp [getAp, doing, smapGet]; exact h
  unfold chunkWaits; rw [e]
/-- PART_CONFIG where the first `n` clusters of the partition are switched on. -/
def configuring (n : Nat) : State := { inPart .config 0x42 (z 32) with clusters := (List.range n).map fun i => (i, dcOn) }
theorem test_hyp_config : (∀ dc ∈ partDcs (configuring 192) 0, cluWritable (configuring 192) dc = true ∧ regionDead (configuring 192) (.ctrl dc) = false) ∧
    partDcs (configuring 1) 0 = [0] ++ 1 :: (List.range 190).map (· + 2) ∧ cluWritable (configuring 1) 0 = true ∧ cluWritable (configuring 1) 1 = false ∧
    devIn [.ready, .running, .draining] fresh = false ∧ createRefs (cmdOf 0x40 (mk 1)) fresh = none := by decide +kernel
/-- A transfer in progress on aperture 1: with packets to send, a broadcast, a block for the host, or its next chunk. -/
def going (c : Cmd) : State := inSession { busy with aps := [(1, { en := true, part := some 0, cur := some c })] }
theorem test_hyp_going : ∀ c ∈ [{ cmdOf 0x50 (tp 3 16) with started := true, job := some (jobOf none) },
      { cmdOf 0x52 bps with started := true, bcast := some {} }, { cmdOf 0x11 (z 24) with started := true, post := some ⟨0, none, [], []⟩ },
      { cmdOf 0x52 bps with started := true }], nextInTurn (going c).pcie.chunkTurn (chunkWaits (going c)) = some 1 := by decide
theorem test_hyp_not_going : nextInTurn busy.pcie.chunkTurn (chunkWaits busy) = none ∧ (going (cmdOf 0x50 (tp 3 16))).pcie.chunkTurn = 15 := by decide
/-- A command on cluster 0 while it is switched off, and an address that names nothing. -/
theorem test_hyp_cluster_off : cluWritable { onClu 0x61 (z 4) .idle with clusters := [] } 0 = false ∧
    dcPart { onClu 0x61 (z 4) .idle with clusters := [] } 0 = some 0 ∧ Reaches { onClu 0x61 (z 4) .idle with clusters := [] } 0 ∧ dcOk 0 = true ∧
    natBits ((cmdOf 0x62 (z 8 ++ leBytes 8 (2 ^ 48))).p 8 8) 63 48 ≠ 0 := by unfold Reaches; decide
/-- A PUT of the neighbour with a packet that the owner holds back: the port takes no other VC1 message meanwhile. -/
def serving (w : Option (Nat × Nat)) : State := link { st := .active, job := some ⟨MsgHdr.bytes (req mtPut 3 0 0x6FC0), jobOf w⟩ }
theorem test_hyp_serving : ∀ w ∈ [none, some (3, 16)], (getPort (serving w) 0).job = some ⟨MsgHdr.bytes (req mtPut 3 0 0x6FC0), jobOf w⟩ ∧
    (parseHdr (MsgHdr.bytes (req mtPut 3 0 0x6FC0))).type = mtPut ∧ mtPut ≠ mtGet ∧ serves (serving w) 0 = true := by decide
theorem test_hyp_put_job : (putJob 0 (req mtPut 3 0 0x6FD0) (z 64) busy).2 = .inl 5 ∧ (putJob 0 (req mtPut 3 1 0x6FC0) (z 64) busy).2 = .inl 8 ∧
    (∃ j, (putJob 0 (req mtPut 3 0 0x6FC0) (z 64) busy).2 = .inr j) ∧ (localJob 0 0 3 (1024 * 256 * 32768) (z 64) busy).2 = .inl fcAddress ∧
    ∃ j, (localJob 0 0 3 0x6FC0 (z 64) busy).2 = .inr j :=
  ⟨by decide, by decide, ⟨_, rfl⟩, by decide, ⟨_, rfl⟩⟩
theorem test_hyp_notify_crosses : busy.net.hard = [] ∧ regionDead busy (.core 0) = false ∧ coreLive busy 0 = true ∧ serves busy 0 = false := by decide
/-- A signal of a chain that arrives, and one to a core of a stopped region. -/
def chainTo (dead : Bool) : State := { chained .running { chainD 1 true with sen := true, score := 1024 * 256 } 64 0 with
  stks := [(0, { part := some 0 }), (1, { rgns := if dead then [(0, { failed := true })] else [] })] }
theorem test_hyp_chain_signal : ∀ dead ∈ [false, true],
    (chainSignal 0 0 { chainD 1 true with sen := true, score := 1024 * 256 } (chainTo dead)).2 = !dead := by
  intro dead h
  have e : ((chainD 1 true).loc = 0) := rfl
  have g : (getChain (chainTo dead) 0 0).salvage = false := by revert dead; decide
  unfold chainSignal
  simp only [g, Bool.not_false, Bool.and_true, if_true]
  rw [(crossNow_clear .control (.link 0) (.core (1024 * 256)) 0 (by rfl)).2]
  revert dead; decide
theorem test_hyp_regulator_port : portUnpowered { busy with dev := { busy.dev with failedRails := [.serdes 0 1] } } 1 = true ∧
    (getPort (link { st := .active }) 0).st ≠ .disabled ∧ (getPort busy 0).st = .disabled := by decide
/-- R456: a write-word with no packet error code, with the right one, with a wrong one, to another address and with another code. -/
theorem test_hyp_smbus : smbTakes up 0x40 ⟨0x4C, 0x40, 480, none⟩ = true ∧
    smbTakes up 0x40 ⟨0x4C, 0x40, 480, some (smbPec [0x98, 0x40, 0xE0, 1])⟩ = true ∧ smbTakes up 0x40 ⟨0x4C, 0x40, 480, some 1⟩ = false ∧
    smbTakes up 0x40 ⟨0x4D, 0x40, 480, none⟩ = false ∧ smbTakes up 0x40 ⟨0x4C, 0x44, 480, none⟩ = false ∧ smbPec (ascii "123456789" |>.map (·.toNat)) = 0xF4 := by
  decide +kernel
theorem test_hyp_reset_low : ({ up with side := { up.side with pkgRstLow := true } } : State).side.vaux = true ∧
    ({ up with side := { up.side with pkgRstLow := true } } : State).side.pwrgd = true ∧ up.dev.rollback ≤ 64 ∧ State.reset.dev.rollback ≤ 64 := by decide

/-! ### Values from the spec -/

/-- The state after a command. -/
def after (i : Instr) (s : State) : State := match exec i s with | .next t => t | _ => s

/-- R67: FP32 sums round to the nearest, ties to even; R171: a BF16 pair addition does too. -/
theorem test_round : fAdd 0x3F800000 0x33800000 = 0x3F800000 ∧ fAdd 0x3F800001 0x33800000 = 0x3F800002 ∧ bfAdd 0x3F80 0x3B80 = 0x3F80 ∧
    bfAdd 0x3F81 0x3B80 = 0x3F82 := by decide
/-- R50 to R54: the largest codes of E2M1 in halves, and of E4M3 and E5M2; E5M2 has infinities and E4M3 has not. -/
theorem test_codes : (List.range 8).map e2m1Half = [0, 1, 2, 3, 4, 6, 8, 12] ∧ e2m1Int 0xF = -12 ∧ toF32 (fp8Val false 0x7E) = 0x43E00000 ∧
    toF32 (fp8Val true 0x7B) = 0x47600000 ∧ toF32 (fp8Val true 0x7C) = fPosInf ∧ toF32 (fp8Val false 0x7F) = qnan := by decide
/-- R192: the interleave of a stack of four memory dies goes over the dies first, 4 KiB at a time, then over the columns. -/
theorem test_interleave : dramDecode up 0 4096 = some (dramLoc 0 1 0) ∧ dramDecode up 0 (4 * 4096) = some (dramLoc 1 0 0) ∧
    dramDecode up 0 (4 * 192 * 4096) = some (dramLoc 0 0 4096) ∧ dramDecode up 0 (144 * 2 ^ 30) = none := by decide
/-- R187: the first bytes of each range of the map. -/
theorem test_map : paDecode up paTarn = .mem (tarnLoc 0 0) ∧ paDecode up (paSpm + 32768) = .spm 1 0 ∧ paDecode up (paClu + 0x10_0000) = .clu 256 0 ∧
    paDecode up (paDie + 0x1_0000) = .die 1 0 ∧ paDecode up 0x3000_0106_0000 = .unmapped := by decide
/-- R345, R346: a header as the bytes that R346 lays out: type 1, PLEN 4, SPACE 3, ADDR 0x40. -/
theorem test_header : (MsgHdr.bytes { type := 1, plen := 4, dspace := 3, addr := 0x40 }) = [0x41, 0, 0, 0x0C, 0, 0, 0, 0, 0x40, 0, 0, 0, 0, 0, 0, 0] ∧
    parseHdr [0x41, 0, 0, 0x0C, 0, 0, 0, 0, 0x40, 0, 0, 0, 0, 0, 0, 0] = { type := 1, plen := 4, dspace := 3, addr := 0x40 } := by decide
/-- FIPS 180-4: SHA-384 of "abc". -/
theorem test_sha384 : sha384 (ascii "abc") = beBytes 48 0xCB00753F45A35E8BB5A03D699AC65007272C32AB0EDED1631A8B605A43FF5BED8086072BA1E7CC2358BAECA134C825A7 := by
  decide +kernel
/-- The GCM specification's test case 14: AES-256 under a zero key and nonce, one block of zeros. -/
theorem test_gcm : gcmSeal (z 32) 0 [] (z 16) = (beBytes 16 0xCEA7403D4D606B6E074EC5D3BAF39D18, beBytes 16 0xD0D1C8A799996BF0265B98B5D48AB919) := by
  decide +kernel
/-- R341: CRC-32C of the ASCII digits 1 to 9. -/
theorem test_crc32c : crc32c (ascii "123456789") = 0xE3069283 := by
  set_option maxRecDepth 4000 in decide
/-- R117: a flag that stands at its top stays there. -/
theorem test_saturate : smapGet (0 : W16) (getCore (after (.sigDeliver 0 0) (signalling 1 0xFFFF#16)) 1).flags 2 = 0xFFFF#16 := by decide
/-- R373: 8% of VCORE stretches a clock by 1.5, 5% by 1.25. -/
theorem test_droop : ([49, 50, 79, 80].map fun m => (getClu (after (.droopDetect 0 m) busy) 0).pwr.droop) = [0, 1, 1, 2] := by
  decide
/-- R172: a second packet of the same tag, address and destination at its leaf makes one packet of the two. -/
theorem test_combine : (after (.reductionCombine (.leaf 0) 3 5) (pair 0)).net.pkts.map Pkt.id = [9] := by decide
/-- Sixteen FP32 ones at byte 0 of core 0's first space and a macro-op in its queue. -/
def ones (w : W64) (d : List (BitVec 128)) : State := with0 { front w d with spm := memPuts [] 0 ((List.replicate 16 (0x3F800000 : Nat)).flatMap (leBytes 4)) }
/-- R113, R114: 1 + 1, 2^1, the sum of 16 ones; a fill's word; a copy. -/
theorem test_effects : (([(Instr.vop 0, ones (mw ocVop 0 0 0 1 0 0) [ds 0 8 0 4 16 1, ds 0 8 0x40 4 16 1], 0x40, 0x40000000),
      (.vop 0, ones (mw ocVop 0 0 0 1 4 0) [ds 0 8 0 4 16 1, ds 0 8 0x40 4 16 1], 0x40, 0x40000000),
      (.vred 0, ones (mw ocVred 0 0 0 1 1 0) [ds 0 8 0 4 16 1, ds 0 8 0x40 4 1 1], 0x40, 0x41800000),
      (.fil 0, ones (mw ocFil 0 0 0 0 0 0x12345678) [ds 0 8 0x40 4 16 1], 0x44, 0x12345678),
      (.cpy 0, ones (mw ocCpy 0 0 0 1 0 0) [ds 0 8 0 4 16 1, ds 0 8 0x40 4 16 1], 0x7C, 0x3F800000)] : List (Instr × State × Nat × Nat)).all fun x =>
    runs x.1 x.2.1 fun t => leNat (spmBytes t 0 x.2.2.1 4) == x.2.2.2) = true := by decide +kernel
end Sys2Proof.Tests
end

section
/-! The statements of the scope: every step goes on in the same package (R2, R8, R306), the machine right after reset (R9, R17), and writes of the
register pages (R475). -/

namespace Sys2Proof.Machine

/-! ### Steps -/

/-- Time alone passes on the time base: the queue and what manufacture fixed stay. -/
theorem tick_fixed (s : State) : (tick s).pending = s.pending ∧ (tick s).mdies = s.mdies ∧ (tick s).ports = s.ports ∧
    (tick s).serial = s.serial ∧ (tick s).rev = s.rev := by
  unfold tick
  split
  · exact ⟨rfl, rfl, rfl, rfl, rfl⟩
  · exact ⟨rfl, rfl, rfl, rfl, rfl⟩

/-- Every step answers a next state of the same package, with the front command gone from the queue. -/
theorem step_next (s : State) : ∃ t, step s = .next t ∧ t.pending = s.pending.tail ∧ t.mdies = s.mdies ∧ t.ports = s.ports ∧
    t.serial = s.serial ∧ t.rev = s.rev := by
  cases hq : s.pending with
  | nil =>
    obtain ⟨hp, hm, hk, hs, hr⟩ := tick_fixed s
    exact ⟨tick s, by simp only [step, hq], hp.trans hq, hm, hk, hs, hr⟩
  | cons i rest =>
    obtain ⟨t, ht, hp, hm, hk, hs, hr, -⟩ := exec_next i { s with pending := rest }
    exact ⟨t, by simp only [step, hq, ht], hp, hm, hk, hs, hr⟩

/-- Whether a part is one that is built depends on its memory dies and its ports alone (R2, R8). -/
theorem Fitted_congr {s t : State} (hm : t.mdies = s.mdies) (hk : t.ports = s.ports) (h : Fitted s) : Fitted t := by
  unfold Fitted at *
  rwa [hm, hk]

/-- Settles O2: every command's outcome is a next state of the same package (`exec_next`), and so is a tick of the time base. -/
theorem everyStepContinues : Obligations.EveryStepContinues := by
  intro s
  obtain ⟨t, ht, hp, hm, hk, hs, hr⟩ := step_next s
  exact ⟨t, ht, hp, hm, hk, hs, hr, Fitted_congr hm hk⟩

/-! ### Reset -/

/-- Settles O5: after reset every sparse table is empty, so that each of its entries stands at its reset value (R17). -/
theorem resetState : Obligations.ResetState := by
  refine ⟨rfl, rfl, rfl, rfl, rfl, rfl, ⟨.inr (.inr rfl), .inr (.inr rfl)⟩, ?cores, ?parts, ?ports, ?clusters, ?bytes⟩
  case cores => exact fun _ => ⟨rfl, rfl⟩
  case parts => exact fun _ => rfl
  case ports => exact fun _ => rfl
  case clusters => exact fun _ => rfl
  case bytes => exact smapGet_nil 0

/-! ### What waits after a packet has crossed -/

/-- A change made for each element in turn that blocks nothing blocks nothing. -/
theorem forEach_blocked {α : Type} {f : State → α → State} (h : ∀ s x, (f s x).blocked = s.blocked) (xs : List α) (s : State) :
    (forEach xs f s).blocked = s.blocked := by
  induction xs generalizing s with
  | nil => rfl
  | cons x xs ih => exact (ih (f s x)).trans (h s x)

theorem passOut_blocked (p : Pkt) (s : State) : (passOut p s).blocked = s.blocked := by
  unfold passOut
  split
  · rfl
  · rfl

theorem countPlane_blocked (n i : Nat) (s : State) : (countPlane n i s).blocked = s.blocked := rfl

theorem countRetry_blocked (h : Hop) (s : State) : (countRetry h s).blocked = s.blocked := by
  cases h <;> rfl

/-- A packet's way past the outputs and planes blocks nothing by itself. -/
theorem crossWay_blocked (k : PktKind) (a d : Endpoint) (n : Nat) (s : State) : (crossWay k a d n s).1.blocked = s.blocked := by
  have passed : ∀ ps is, (forEach ps (fun s p => passOut p s) (forEach is (fun s i => countPlane n i s) s)).blocked = s.blocked :=
    fun ps is => (forEach_blocked (fun s p => passOut_blocked p s) ps _).trans (forEach_blocked (fun s i => countPlane_blocked n i s) is s)
  unfold crossWay
  dsimp only
  split
  · simp only [countRetry_blocked, passed]
  · exact passed _ _

/-- Between `s` and `t` nothing new keeps an event from being due but a switch's turn (R161). -/
def WaitsTurn (s t : State) : Prop := t.blocked = s.blocked ∨ (s.blocked = none ∧ t.blocked = some .turn)

theorem WaitsTurn_trans {s t u : State} (h : WaitsTurn s t) (g : WaitsTurn t u) : WaitsTurn s u := by
  rcases g with g | ⟨ht, hu⟩
  · simpa only [WaitsTurn, g] using h
  · rcases h with h | ⟨-, h⟩
    · exact .inr ⟨h.symm.trans ht, hu⟩
    · exact absurd (h.symm.trans ht) (by simp)

/-- A packet that crosses within its sender's command waits for nothing but a switch's turn (R161). -/
theorem crossNow_waitsTurn (k : PktKind) (a d : Endpoint) (n : Nat) (s : State) : WaitsTurn s (crossNow k a d n s).1 := by
  have way := crossWay_blocked k a d n s
  unfold crossNow
  dsimp only
  split
  · exact .inl way
  · cases hb : s.blocked with
    | none => exact .inr ⟨hb, by simp [block, way, hb]⟩
    | some w => exact .inl (by simp [block, way, hb])

/-! ### Register writes -/

section

variable {s t : State} {a off : Nat} {bs : List Byte}

/-- A command that makes the state that it found changes nothing. -/
theorem live_self (s : State) : live s s = .next s := by
  cases h : awake s with
  | true => rw [live_awake h, ofPackage_eq] <;> rfl
  | false => exact live_asleep h s

/-- A write of BAR0 that is a whole aligned register, where BAR0 answers, has that register's effect (R281). -/
theorem execRegisterWrite_bar0 (hw : awake s = true) (hb : barUp s = true) (ha : a % 8 = 0) (hl : bs.length = 8) :
    execRegisterWrite true a bs s = .next (ofPackage s (bar0Write a (leNat bs) s)) := by
  simp only [execRegisterWrite, hb, ha, hl, beq_self_eq_true, Bool.and_self, if_true, live_awake hw]

/-- A write of BAR0 that is no whole aligned register, or while BAR0 does not answer, changes nothing (R281). -/
theorem execRegisterWrite_bar0_ignored (h : (barUp s && a % 8 == 0 && bs.length == 8) = false) : execRegisterWrite true a bs s = .next s := by
  simp only [execRegisterWrite, h, if_true, Bool.false_eq_true, if_false, live_self]

/-- A write of a device physical address that changes no register has no effect. -/
theorem execRegisterWrite_pa_ignored (h : paRegWrite a bs s = s) : execRegisterWrite false a bs s = .next s := by
  simp only [execRegisterWrite, Bool.false_eq_true, if_false, h, live_self]

/-- A write of a device physical address where the package acts. -/
theorem execRegisterWrite_pa (h : awake s = true) : execRegisterWrite false a bs s = .next (ofPackage s (paRegWrite a bs s)) := by
  simp only [execRegisterWrite, Bool.false_eq_true, if_false, live_awake h]

/-- A write in a cluster's control block that takes writes: the units it covers whole, in order (R475). -/
theorem paRegWrite_clu {dc : Nat} {us : List (Nat × Nat)} (hp : paDecode s a = .clu dc off) (hw : cluWritable s dc = true)
    (hl : off + bs.length ≤ 0x1000) (hu : coverUnits (fun _ => 8) off (bs.map some) = some us) :
    paRegWrite a bs s = us.foldl (fun s u => cluWriteUnit dc u.1 u.2 s) s := by
  simp only [paRegWrite, hp, hw, hl, hu, decide_true, Bool.and_self, if_true]

/-- A write in a die's control block: the units it covers whole, in order (R475). -/
theorem paRegWrite_die {d : Nat} {us : List (Nat × Nat)} (hp : paDecode s a = .die d off) (hl : off + bs.length ≤ 0x1_0000)
    (hu : coverUnits (fun _ => 8) off (bs.map some) = some us) :
    paRegWrite a bs s = us.foldl (fun s u => dieWriteUnit d u.1 u.2 s) s := by
  simp only [paRegWrite, hp, hl, hu, if_true]

/-- A write that covers part of a unit of a cluster's control block changes nothing, whether the cluster takes writes or not (R475). -/
theorem paRegWrite_clu_part {dc : Nat} (hp : paDecode s a = .clu dc off) (hu : coverUnits (fun _ => 8) off (bs.map some) = none) :
    paRegWrite a bs s = s := by
  simp only [paRegWrite, hp, hu, ite_self]

/-- A write that covers part of a unit of a die's control block changes nothing (R475). -/
theorem paRegWrite_die_part {d : Nat} (hp : paDecode s a = .die d off) (hu : coverUnits (fun _ => 8) off (bs.map some) = none) :
    paRegWrite a bs s = s := by
  simp only [paRegWrite, hp, hu, ite_self]

/-- A write in a core's register page goes over the fabric (R152). -/
theorem paRegWrite_page {c : Nat} (hp : paDecode s a = .spm c off) (h7 : 0x7000 ≤ off) (hl : off + bs.length ≤ 0x8000) :
    paRegWrite a bs s = (outsideWrite .write c off (bs.map some) .leadIo s).1 := by
  simp only [paRegWrite, hp, h7, hl, and_self, if_true]

/-- A packet that reaches its owner and is settled there: its answer crosses back. -/
theorem outsideWrite_done {k : PktKind} {c e : Nat} {data : List (Option Byte)} {src : Endpoint} {st : FabStatus}
    (hx : (crossNow k src (.core c) data.length s).2 = true)
    (ha : outsideArrive c off data src (crossNow k src (.core c) data.length s).1 = (t, .done st e)) :
    (outsideWrite k c off data src s).1 = (crossNow .answer (.core c) src 0 t).1 := by
  simp only [outsideWrite, hx, ha, Bool.not_true, Bool.false_eq_true, if_false]

/-- A write at the register page of a core that runs: the units it covers whole take their values in order, and the packet is accepted (R178, R475). -/
theorem outsideArrive_page {c : Nat} {data : List (Option Byte)} {src : Endpoint} {us : List (Nat × Nat)} (hon : coreLive s c = true)
    (h7 : 0x7000 ≤ off) (hu : coverUnits pageUnit off data = some us) :
    outsideArrive c off data src s =
      (countRx (.core c) data.length (us.foldl (fun s u => updCore s c (pageWrite u.1 u.2)) s), .done .commit 0) := by
  simp only [outsideArrive, pageWriteRange, hon, h7, hu, Bool.not_true, Bool.false_eq_true, if_false, if_true]

/-- One that covers part of a unit is refused whole with ADDRESS (R475). -/
theorem outsideArrive_page_part {c : Nat} {data : List (Option Byte)} {src : Endpoint} (hon : coreLive s c = true) (h7 : 0x7000 ≤ off)
    (hu : coverUnits pageUnit off data = none) : outsideArrive c off data src s = (s, .done .address (spmPa c off)) := by
  simp only [outsideArrive, pageWriteRange, hon, h7, hu, Bool.not_true, Bool.false_eq_true, if_false, if_true]

/-- A state that differs in the switches' turns and the planes' counts alone has a core running where the other has. -/
theorem OnlyPassed_coreLive (h : OnlyPassed s t) (c : Nat) : coreLive t c = coreLive s c := by
  obtain ⟨-, hclu, -⟩ := OnlyPassed_fields h
  simp only [coreLive, getClu, hclu]

/-- An outcome that has only passed the fabric, and waits for no bank, leaves every register and all memory. -/
theorem ofPackage_passed (h : OnlyPassed s t) (hw : WaitsTurn s t) :
    (ofPackage s t).cores = s.cores ∧ (ofPackage s t).clusters = s.clusters ∧ (ofPackage s t).stks = s.stks ∧ (ofPackage s t).mem = s.mem := by
  obtain ⟨hcores, hclu, hmem, hstk, -⟩ := OnlyPassed_fields h
  rcases hw with hb | ⟨hs, ht⟩
  · have due : (t.blocked.isSome && s.blocked.isNone) = false := by rw [hb]; cases s.blocked <;> rfl
    unfold ofPackage
    rw [due]
    exact ⟨hcores, hclu, hstk, hmem⟩
  · rw [ofPackage_held ht hs]
    exact ⟨rfl, rfl, rfl, rfl⟩

/-- A write that covers whole units of the register page of a core that runs (R475): it crosses, has its effect, and its answer crosses back. -/
theorem paRegWrite_page_units {c : Nat} {us : List (Nat × Nat)} (hp : paDecode s a = .spm c off) (h7 : 0x7000 ≤ off)
    (hl : off + bs.length ≤ 0x8000) (hon : coreLive s c = true) (hh : s.net.hard = []) (hd : regionDead s (.core c) = false)
    (hu : coverUnits pageUnit off (bs.map some) = some us) :
    paRegWrite a bs s = (crossNow .answer (.core c) .leadIo 0 (countRx (.core c) bs.length
      (us.foldl (fun s u => updCore s c (pageWrite u.1 u.2)) (crossNow .write .leadIo (.core c) bs.length s).1))).1 := by
  obtain ⟨passed, arrives⟩ := crossNow_clear .write .leadIo (.core c) (bs.map some).length hh
  have accepted := outsideArrive_page (src := .leadIo) ((OnlyPassed_coreLive passed c).trans hon) h7 hu
  rw [paRegWrite_page hp h7 hl, outsideWrite_done (by rw [arrives, hd]; rfl) accepted, List.length_map]

/-- A write that covers part of a unit of that page changes what a packet and its answer change on their way, and no register. -/
theorem paRegWrite_page_part {c : Nat} (hp : paDecode s a = .spm c off) (h7 : 0x7000 ≤ off) (hl : off + bs.length ≤ 0x8000)
    (hon : coreLive s c = true) (hh : s.net.hard = []) (hd : regionDead s (.core c) = false)
    (hu : coverUnits pageUnit off (bs.map some) = none) :
    OnlyPassed s (paRegWrite a bs s) ∧ WaitsTurn s (paRegWrite a bs s) := by
  obtain ⟨passed, arrives⟩ := crossNow_clear .write .leadIo (.core c) (bs.map some).length hh
  have refused := outsideArrive_page_part (src := .leadIo) ((OnlyPassed_coreLive passed c).trans hon) h7 hu
  rw [paRegWrite_page hp h7 hl, outsideWrite_done (by rw [arrives, hd]; rfl) refused]
  obtain ⟨-, -, -, -, -, -, -, -, hard, -⟩ := OnlyPassed_fields passed
  exact ⟨OnlyPassed_trans passed (crossNow_clear .answer (.core c) .leadIo 0 (hard.trans hh)).1,
    WaitsTurn_trans (crossNow_waitsTurn ..) (crossNow_waitsTurn ..)⟩

end

/-- Settles O33: each clause by the place that the address names and by the units that the write covers. -/
theorem registerWrites : Obligations.RegisterWrites := by
  intro s a bs hw
  refine ⟨?clu, ?die, ?page, ?cluPart, ?diePart, ?unmapped, ?bar0, ?bar0Part⟩
  case clu =>
    intro dc off us hp hc hl hu
    exact (execRegisterWrite_pa hw).trans (by rw [paRegWrite_clu hp hc hl hu])
  case die =>
    intro d off us hp hl hu
    exact (execRegisterWrite_pa hw).trans (by rw [paRegWrite_die hp hl hu])
  case page =>
    intro c off hp h7 hl hon hh hd u hu
    have live : coreLive s c = true := by rw [coreLive, hon]; rfl
    obtain ⟨passed, -⟩ := crossNow_clear .write .leadIo (.core c) bs.length hh
    obtain ⟨cores, -⟩ := OnlyPassed_fields passed
    subst hu
    refine ⟨cores, fun us cover => ?_, fun cover => ?_⟩
    · exact (execRegisterWrite_pa hw).trans (by rw [paRegWrite_page_units hp h7 hl live hh hd cover])
    · obtain ⟨only, waits⟩ := paRegWrite_page_part hp h7 hl live hh hd cover
      exact ⟨_, execRegisterWrite_pa hw, ofPackage_passed only waits⟩
  case cluPart => exact fun dc off hp hu => execRegisterWrite_pa_ignored (paRegWrite_clu_part hp hu)
  case diePart => exact fun d off hp hu => execRegisterWrite_pa_ignored (paRegWrite_die_part hp hu)
  case unmapped => exact fun hp => execRegisterWrite_pa_ignored (by simp only [paRegWrite, hp])
  case bar0 => exact execRegisterWrite_bar0 hw
  case bar0Part =>
    intro h
    refine execRegisterWrite_bar0_ignored ?_
    rcases h with h | h <;> simp [h]

end Sys2Proof.Machine
end

section
/-! Scratchpads: the owner's check point (R138, R142, R145), commits (R146, R160) and remote reads (R141, R160). -/

namespace Sys2Proof.Machine

section

variable {s t u : State} {c d off n sc w : Nat} {data : List (Option Byte)} {p : Pkt}

/-! ### What a packet leaves alone -/

/-- `t` differs from `s` at most in what is counted: the clusters' counters and the events of the power estimates (R178, R378). -/
def Counted (s t : State) : Prop := t = { s with clusters := t.clusters, act := t.act, actMs := t.actMs }

theorem Counted_trans (h : Counted s t) (g : Counted t u) : Counted s u := by
  unfold Counted at *
  rw [g, h]

theorem Counted_countAct (k : Nat) : Counted s (countAct c k n s) := by
  unfold countAct
  split
  · rfl
  · rfl

theorem Counted_countRx (e : Endpoint) : Counted s (countRx e n s) := by
  cases e <;> rfl

theorem Counted_countTx (e : Endpoint) : Counted s (countTx e n s) := by
  cases e
  case core c =>
    have bytes : Counted s (updClu s (lciDc c) fun k => { k with fabTx := inc64 k.fabTx n }) := rfl
    exact Counted_trans bytes (Counted_countAct _)
  all_goals rfl

theorem Counted_fields (h : Counted s t) :
    t.cores = s.cores ∧ t.mem = s.mem ∧ t.net = s.net ∧ t.stuck = s.stuck ∧ t.blocked = s.blocked := by
  unfold Counted at h
  rw [h]
  exact ⟨rfl, rfl, rfl, rfl, rfl⟩

/-- Events of the power estimates are counted apart from the clusters' registers and from time. -/
theorem countAct_fields (k : Nat) (s : State) : (countAct c k n s).clusters = s.clusters ∧ (countAct c k n s).dev = s.dev := by
  unfold countAct
  split
  · exact ⟨rfl, rfl⟩
  · exact ⟨rfl, rfl⟩

theorem getCore_congr (h : t.cores = s.cores) (c : Nat) : getCore t c = getCore s c := by
  simp only [getCore, h]

theorem getClu_congr (h : t.clusters = s.clusters) (c : Nat) : getClu t c = getClu s c := by
  simp only [getClu, h]

theorem passOut_fixed (p : Pkt) (s : State) : (passOut p s).dev = s.dev ∧ (passOut p s).stuck = s.stuck := by
  unfold passOut
  split
  · exact ⟨rfl, rfl⟩
  · exact ⟨rfl, rfl⟩

/-- A packet as it stands in the fabric once it is sent: with the next number, at the start of its path. -/
def sentAs (p : Pkt) (s : State) : Pkt :=
  { p with id := s.net.nextId, stamp := s.net.nextId, hops := hopsOf p.vc p.src p.dst p.tag }

/-- A packet sent stands behind all others, and no core, no memory and no wait changes. -/
theorem sendPkt_fields (p : Pkt) (s : State) : (sendPkt p s).1.net.pkts = s.net.pkts ++ [sentAs p s] ∧
    (sendPkt p s).1.cores = s.cores ∧ (sendPkt p s).1.mem = s.mem ∧ (sendPkt p s).1.blocked = s.blocked := by
  obtain ⟨cores, mem, net, -, blocked⟩ := Counted_fields (Counted_countTx
    (s := updNet s fun t => { t with pkts := t.pkts ++ [sentAs p s], nextId := s.net.nextId + 1 }) (n := p.data.length) p.src)
  exact ⟨congrArg Net.pkts net, cores, mem, blocked⟩

/-- A command that nothing new keeps from being due has its effect. -/
theorem ofPackage_due (h : t.blocked = s.blocked) :
    (ofPackage s t).cores = t.cores ∧ (ofPackage s t).mem = t.mem ∧ (ofPackage s t).net = t.net := by
  have due : (t.blocked.isSome && s.blocked.isNone) = false := by rw [h]; cases s.blocked <;> rfl
  rw [ofPackage, due]
  exact ⟨rfl, rfl, rfl⟩

/-- An outcome in which one packet is sent and another leaves the fabric. -/
theorem ofPackage_sendPkt (h : u.blocked = s.blocked) (i : Nat) (p : Pkt) :
    (ofPackage s (dropPkt i (sendPkt p u).1)).net.pkts = (u.net.pkts ++ [sentAs p u]).filter (fun x => x.id != i) ∧
      (ofPackage s (dropPkt i (sendPkt p u).1)).cores = u.cores ∧ (ofPackage s (dropPkt i (sendPkt p u).1)).mem = u.mem := by
  obtain ⟨pkts, cores, mem, blocked⟩ := sendPkt_fields p u
  obtain ⟨dueCores, dueMem, dueNet⟩ := ofPackage_due (s := s) (t := dropPkt i (sendPkt p u).1) (blocked.trans h)
  refine ⟨?_, dueCores.trans cores, dueMem.trans mem⟩
  rw [dueNet, ← pkts]
  rfl

/-! ### Writes into a core's window (R139) -/

/-- `t` is `s` after masked bytes came into a core's window: beside the window, its valid bits and its flipped cells, nothing but counts has changed. -/
structure WindowWritten (c off : Nat) (data : List (Option Byte)) (s t : State) : Prop where
  frame : t = { s with cores := t.cores, clusters := t.clusters, act := t.act, actMs := t.actMs }
  others : ∀ d, d ≠ c → getCore t d = getCore s d
  window : ∃ v f, getCore t c = { getCore s c with spm := memMask (getCore s c).spm off data, lineValid := v, spmFlips := f }

theorem WindowWritten.fields (h : WindowWritten c off data s t) : t.mem = s.mem ∧ t.net = s.net ∧ t.blocked = s.blocked := by
  rw [h.frame]
  exact ⟨rfl, rfl, rfl⟩

/-- The bytes of the window after a masked write. -/
theorem WindowWritten.bytes (h : WindowWritten c off data s t) (x : Nat) : memByte (getCore t c).spm x =
    if off ≤ x ∧ x < off + data.length then (data.getD (x - off) none).getD (memByte (getCore s c).spm x)
    else memByte (getCore s c).spm x := by
  obtain ⟨v, f, hw⟩ := h.window
  rw [hw]
  exact memByte_mask ..

theorem WindowWritten.held (h : WindowWritten c off data s t) : (getCore t c).held = (getCore s c).held := by
  obtain ⟨v, f, hw⟩ := h.window
  rw [hw]

/-- What was counted before the write does not show in it. -/
theorem WindowWritten.after_count (h : Counted s u) (g : WindowWritten c off data u t) : WindowWritten c off data s t := by
  obtain ⟨cores, -⟩ := Counted_fields h
  obtain ⟨frame, others, window⟩ := g
  simp only [getCore_congr cores] at others window
  unfold Counted at h
  exact ⟨by rw [frame, h], others, window⟩

/-- The stuck cells of the words written fail again, which changes no byte. -/
theorem WindowWritten.restick (h : WindowWritten c off data s t) (ws : List Nat) : WindowWritten c off data s (restick c ws t) := by
  obtain ⟨frame, others, v, f, window⟩ := h
  unfold Machine.restick
  split
  · exact ⟨frame, others, v, f, window⟩
  · refine ⟨?_, fun d hd => ?_, ?_⟩
    · rw [frame]
      rfl
    · rw [getCore_updCore, if_neg hd, others d hd]
    · rw [getCore_updCore_same, window]
      exact ⟨v, _, rfl⟩

theorem memMask_none (m : List Host.Cell) (h : data.all (·.isNone) = true) : memMask m off data = m := by
  induction data generalizing off with
  | nil => rfl
  | cons b bs ih =>
    simp only [List.all_cons, Bool.and_eq_true, Option.isNone_iff_eq_none] at h
    obtain ⟨rfl, hbs⟩ := h
    exact ih (by simpa using hbs)

/-- A write of some byte to a core without flipped cells. -/
theorem spmWrite_unflipped_some (hf : (getCore s c).spmFlips = []) (hd : data.all (·.isNone) = false) :
    ∃ ws, spmWrite c off data s = (restick c ws (updCore s c fun k => { k with
      spm := memMask k.spm off data
      lineValid := (linesOf off data.length).foldl setIns k.lineValid
      spmFlips := [] }), none) := by
  simp only [spmWrite, hd, hf, Bool.false_eq_true, if_false, List.map_nil, List.filter_nil, spmReadWords]
  exact ⟨_, congrArg (fun t => (restick c _ t, none)) (updCore_congr (by simp only [hf, List.filter_nil]))⟩

/-- A write to a core without flipped cells always succeeds. -/
theorem spmWrite_unflipped (hf : (getCore s c).spmFlips = []) :
    ∃ t, spmWrite c off data s = (t, none) ∧ WindowWritten c off data s t := by
  cases hd : data.all (·.isNone) with
  | true => exact ⟨s, by simp only [spmWrite, hd, if_true], rfl, fun _ _ => rfl, _, _, by rw [memMask_none _ hd]⟩
  | false =>
    obtain ⟨ws, hw⟩ := spmWrite_unflipped_some (off := off) hf hd
    refine ⟨_, hw, WindowWritten.restick ⟨rfl, fun d h => ?_, _, _, getCore_updCore_same ..⟩ ws⟩
    rw [getCore_updCore, if_neg h]

/-- A scan of words none of which holds a flipped cell finds nothing and changes nothing. -/
theorem spmScan_unflipped (hf : (getCore s c).spmFlips = []) (rq : Nat) (rs : List (Nat × Nat)) : spmScan c rq rs s = (s, none) := by
  simp only [spmScan, spmBadIn, hf, List.map_nil, List.filter_nil, spmReadWords]

theorem spmBytes_congr (hc : t.cores = s.cores) (hk : t.clusters = s.clusters) : spmBytes t c off n = spmBytes s c off n := by
  simp only [spmBytes, getCore_congr hc, getClu_congr hk]

theorem windowBytes_congr (hc : t.cores = s.cores) (hk : t.clusters = s.clusters) (hd : t.dev = s.dev) :
    windowBytes t c off n = windowBytes s c off n := by
  simp only [windowBytes, spmBytes_congr hc hk, pageRead, coreCycle, getCore_congr hc, hd]

/-! ### The check point -/

/-- The open windows that hold all of a write's bytes and reach its writer's scope (R145). -/
def openWindows (k : Core) (off n scope : Nat) : List Nat :=
  (List.range 4).filter fun w => (getWin k w).isOpen && winHolds (getWin k w) off n && decide (scope ≤ (getWin k w).scope)

/-- The lowest closed window that would have held them (R145). -/
def closedWindow (k : Core) (off n : Nat) : Option Nat :=
  (List.range 4).find? fun w => ((getWin k w).held || (getWin k w).closing) && winHolds (getWin k w) off n

theorem linesDown_congr (h : t.clusters = s.clusters) (ls : List Nat) : linesDown t c ls = linesDown s c ls := by
  simp only [linesDown, spmDown, getClu_congr h]

section

variable {host : Bool} (guarded : host = true → (getCore s c).st = .running)

include guarded

/-- Only a write of the host, and only to a core that is not running, needs no window (R142). -/
theorem needs_window : ¬(host = true ∧ (getCore s c).st ≠ .running) := fun ⟨h, idle⟩ => idle (guarded h)

/-- Into a powered-down half no window admits (R138). -/
theorem checkPoint_down (hd : linesDown s c (linesOf off n) = true) : checkPoint s c off n sc host = .noWindow := by
  simp only [checkPoint, if_neg (needs_window guarded), hd, if_true]

theorem checkPoint_open (hd : linesDown s c (linesOf off n) = false) (hw : openWindows (getCore s c) off n sc ≠ []) :
    checkPoint s c off n sc host = .windows (openWindows (getCore s c) off n sc) := by
  have admits : (!(openWindows (getCore s c) off n sc).isEmpty) = true := by simpa using hw
  unfold openWindows at *
  simp only [checkPoint, if_neg (needs_window guarded), hd, Bool.false_eq_true, if_false, admits, if_true]

theorem checkPoint_closed (hd : linesDown s c (linesOf off n) = false) (hw : openWindows (getCore s c) off n sc = [])
    (hc : closedWindow (getCore s c) off n = some w) : checkPoint s c off n sc host = .closed w := by
  unfold openWindows closedWindow at *
  simp only [checkPoint, if_neg (needs_window guarded), hd, Bool.false_eq_true, if_false, hw, List.isEmpty_nil, Bool.not_true, hc]

theorem checkPoint_none (hw : openWindows (getCore s c) off n sc = []) (hc : closedWindow (getCore s c) off n = none) :
    checkPoint s c off n sc host = .noWindow := by
  unfold openWindows closedWindow at *
  simp only [checkPoint, if_neg (needs_window guarded), hw, List.isEmpty_nil, Bool.not_true, Bool.false_eq_true, if_false, hc, ite_self]

end

/-- A write of the host needs no window of a core that is not running (R142), but does need power (R138). -/
theorem checkPoint_host (hr : (getCore s c).st ≠ .running) :
    checkPoint s c off n sc true = if linesDown s c (linesOf off n) then .address else .free := by
  simp only [checkPoint, hr, ne_eq, not_false_eq_true, and_self, if_true]

theorem checkPoint_congr (hc : t.cores = s.cores) (hk : t.clusters = s.clusters) (host : Bool) :
    checkPoint t c off n sc host = checkPoint s c off n sc host := by
  simp only [checkPoint, getCore_congr hc, linesDown_congr hk]

/-! ### Packets at the check point -/

/-- At a core that is switched off, or was reset while the packet was on its way, nothing is checked (R149, R177). -/
theorem checkPkt_dead {red : Option Nat} (h : coreLive s c = false ∨ p.stale = true) :
    checkPkt c p red s = dropPkt p.id (answerPkt p .resetAbort 0 s) := by
  have dead : (!coreLive s c || p.stale) = true := by rcases h with h | h <;> simp [h]
  simp only [checkPkt, dead, if_true]

/-- The register page takes no packet of another core. -/
theorem checkPkt_page {red : Option Nat} (hl : coreLive s c = true) (hs : p.stale = false) (h7 : 0x7000 ≤ p.addr % 32768) :
    checkPkt c p red s = dropPkt p.id (answerPkt p .address p.addr s) := by
  simp only [checkPkt, hl, hs, Bool.not_true, Bool.or_self, Bool.false_eq_true, if_false, h7, if_true]

/-- What becomes of a packet that is checked, by what the check point says of it. -/
def settleCheck (c : Nat) (p : Pkt) (red : Option Nat) (s : State) : Admit → State
  | .windows ws => admitPkt c p ws red s
  | .free => admitPkt c p [] red s
  | .closed w => dropPkt p.id (answerPkt p .windowClosed 0 (countDrop c w s))
  | .noWindow => dropPkt p.id (answerPkt p .noWindow 0 s)
  | .address => dropPkt p.id (answerPkt p .address p.addr s)

/-- A packet for the window of a core that runs fares as the check point says (R145). -/
theorem checkPkt_checked {red : Option Nat} (hl : coreLive s c = true) (hs : p.stale = false) (h7 : p.addr % 32768 < 0x7000) :
    checkPkt c p red s =
      settleCheck c p red s (checkPoint s c (p.addr % 32768) p.data.length (max p.scope (writerScope p.src c)) false) := by
  simp only [checkPkt, hl, hs, Bool.not_true, Bool.or_self, Bool.false_eq_true, if_false, Nat.not_le.2 h7]
  cases checkPoint s c (p.addr % 32768) p.data.length (max p.scope (writerScope p.src c)) false <;> rfl

/-- An admitted packet stands last among those that its core holds (R146); no byte, no other core and no memory changes. -/
theorem ofPackage_admitPkt (ws : List Nat) (red : Option Nat) (s : State) :
    (getCore (ofPackage s (admitPkt c p ws red (passOut p s))) c).held = (getCore s c).held ++
      [⟨p.id, ws, p.addr % 32768, p.data, red, qntHolds (getCore s c) (p.addr % 32768) p.data.length⟩] ∧
    (getCore (ofPackage s (admitPkt c p ws red (passOut p s))) c).spm = (getCore s c).spm ∧
    (∀ d, d ≠ c → getCore (ofPackage s (admitPkt c p ws red (passOut p s))) d = getCore s d) ∧
    (ofPackage s (admitPkt c p ws red (passOut p s))).mem = s.mem := by
  obtain ⟨passed, -, passedMem, -⟩ := OnlyPassed_fields (OnlyPassed_passOut (s := s) p)
  obtain ⟨cores, mem, -, -, blocked⟩ := Counted_fields (Counted_countRx (n := p.data.length) (.core c)
    (s := updNet (updCore (passOut p s) c fun k => { k with
        held := k.held ++ [⟨p.id, ws, p.addr % 32768, p.data, red, qntHolds (getCore (passOut p s) c) (p.addr % 32768) p.data.length⟩] })
      fun t => { t with pkts := mapIf (fun q => q.id == p.id) (fun q => { q with taken := true }) t.pkts }))
  obtain ⟨dueCores, dueMem, -⟩ := ofPackage_due (s := s) (t := admitPkt c p ws red (passOut p s)) (blocked.trans (passOut_blocked p s))
  have core := getCore_congr (dueCores.trans cores)
  refine ⟨?_, ?_, fun d hd => ?_, dueMem.trans (mem.trans passedMem)⟩
  · rw [core, getCore_updNet, getCore_updCore_same, getCore_congr passed]
  · rw [core, getCore_updNet, getCore_updCore_same, getCore_congr passed]
  · rw [core, getCore_updNet, getCore_updCore, if_neg hd, getCore_congr passed]

/-- A write or reduction packet that stands at its owner passes its port's output and is checked. -/
theorem exec_checkPkt {i : Instr} {pid : Nat} {kind : PktKind} {red : Option Nat}
    (hi : (i = Instr.writePacketArrive pid ∧ kind = PktKind.write ∧ red = none) ∨
      (i = Instr.reductionPacketArrive pid ∧ kind = PktKind.reduction ∧ red = some p.fmt))
    (hw : awake s = true) (ha : atCore s pid kind = some (c, p)) :
    exec i s = .next (ofPackage s (checkPkt c p red (passOut p s))) := by
  rcases hi with ⟨rfl, rfl, rfl⟩ | ⟨rfl, rfl, rfl⟩
  · change execWritePacketArrive pid s = _
    simp only [execWritePacketArrive, ha, live_awake hw]
  · change execReductionPacketArrive pid s = _
    simp only [execReductionPacketArrive, ha, live_awake hw]

theorem coreLive_of_on (h : (getClu s (lciDc c)).pwr.st = .on) : coreLive s c = true := by
  rw [coreLive, h]
  rfl

theorem coreLive_of_off (h : (getClu s (lciDc c)).pwr.st ≠ .on) : coreLive s c = false := by
  simpa [coreLive] using h

/-! ### Writes of the host and Meridian -/

/-- A write of the host that needs no window, with nothing before it, is committed at once (R142, R146). -/
theorem outsideArrive_free (hl : coreLive s c = true) (h7 : off < 0x7000) (he : off + data.length ≤ 0x7000)
    (hc : checkPoint s c off data.length 2 true = .free) (hm : mustHold s c off data.length [] .leadIo = false)
    (hf : (getCore s c).spmFlips = []) :
    ∃ t, outsideArrive c off data .leadIo s = (t, .done .commit 0) ∧ WindowWritten c off data s t := by
  have counted : Counted s (countAct (lciDc c) akSpm 1 (countRx (.core c) data.length s)) :=
    Counted_trans (Counted_countRx _) (Counted_countAct _)
  obtain ⟨cores, -⟩ := Counted_fields counted
  obtain ⟨t, hw, written⟩ := spmWrite_unflipped (off := off) (data := data) (by rw [getCore_congr cores]; exact hf)
  refine ⟨t, ?_, written.after_count counted⟩
  simp only [outsideArrive, hl, Bool.not_true, Bool.false_eq_true, if_false, Nat.not_le.2 h7, Nat.not_lt.2 he, beq_self_eq_true, hc, hm, hw]

/-- A write that finds no window, or meets a powered-down half without needing one, is dropped and changes nothing (R138, R142). -/
theorem outsideArrive_dropped {st : FabStatus} (hl : coreLive s c = true) (h7 : off < 0x7000) (he : off + data.length ≤ 0x7000)
    (hc : checkPoint s c off data.length 2 true = .noWindow ∧ st = .noWindow ∨
      checkPoint s c off data.length 2 true = .address ∧ st = .address) :
    outsideArrive c off data .leadIo s = (s, .done st (spmPa c off)) := by
  simp only [outsideArrive, hl, Bool.not_true, Bool.false_eq_true, if_false, Nat.not_le.2 h7, Nat.not_lt.2 he, beq_self_eq_true]
  rcases hc with ⟨hc, rfl⟩ | ⟨hc, rfl⟩
  · rw [hc]
  · rw [hc]

end

/-- Settles O21: a packet by what the check point says of it (`checkPkt_checked`), a write of the host by whether its core runs. -/
theorem checkPoints : Obligations.CheckPoints := by
  refine ⟨?packet, ?outside⟩
  case packet =>
    rintro s c pid p i kind red hi hw ha off n sc ws rfl rfl rfl rfl
    obtain ⟨cores, clusters, -⟩ := OnlyPassed_fields (OnlyPassed_passOut (s := s) p)
    have live : coreLive (passOut p s) c = coreLive s c := OnlyPassed_coreLive (OnlyPassed_passOut p) c
    have checked : ∀ a, checkPoint s c (p.addr % 32768) p.data.length (max p.scope (writerScope p.src c)) false = a →
        (getClu s (lciDc c)).pwr.st = .on → p.stale = false → p.addr % 32768 < 0x7000 →
        exec i s = .next (ofPackage s (settleCheck c p red (passOut p s) a)) := by
      rintro a rfl on fresh window
      rw [exec_checkPkt hi hw ha, checkPkt_checked (live.trans (coreLive_of_on on)) fresh window, checkPoint_congr cores clusters]
    have packet : (false : Bool) = true → (getCore s c).st = .running := by simp
    refine ⟨fun on fresh window up => ⟨?admitted, ?closed, ?noWindow⟩, ?down, ?dead, ?page⟩
    case admitted =>
      exact fun admits => ⟨_, checked _ (checkPoint_open packet up admits) on fresh window, ofPackage_admitPkt ..⟩
    case closed => exact fun shut w closed => checked _ (checkPoint_closed packet up shut closed) on fresh window
    case noWindow => exact fun shut closed => checked _ (checkPoint_none packet shut closed) on fresh window
    case down => exact fun on fresh window down => checked _ (checkPoint_down packet down) on fresh window
    case dead =>
      intro dead
      rw [exec_checkPkt hi hw ha, checkPkt_dead (dead.imp_left fun off => live.trans (coreLive_of_off off))]
    case page =>
      intro on fresh page
      rw [exec_checkPkt hi hw ha, checkPkt_page (live.trans (coreLive_of_on on)) fresh page]
  case outside =>
    intro s c off data on inside window t e arrives
    have live := coreLive_of_on on
    have dropped := fun st h => Prod.mk.inj (arrives.symm.trans (outsideArrive_dropped (st := st) live window inside h))
    refine ⟨?commits, ?down, ?noPower, ?noWindow⟩
    case commits =>
      intro idle up first unflipped
      obtain ⟨t', commits, written⟩ := outsideArrive_free live window inside (by rw [checkPoint_host idle, up]; rfl) first unflipped
      obtain ⟨rfl, rfl⟩ := Prod.mk.inj (arrives.symm.trans commits)
      obtain ⟨mem, net, -⟩ := written.fields
      exact ⟨rfl, mem, net, written.others, written.bytes⟩
    case down => exact fun idle down => dropped _ (.inr ⟨by rw [checkPoint_host idle, down]; rfl, rfl⟩)
    case noPower => exact fun running down => dropped _ (.inl ⟨checkPoint_down (fun _ => running) down, rfl⟩)
    case noWindow =>
      intro running shut
      have noneOpen : openWindows (getCore s c) off data.length 2 = [] := List.filter_eq_nil_iff.2 fun w hw => by
        obtain ⟨h | h | h, -⟩ := shut w (List.mem_range.1 hw)
        · simp [h]
        · simp [h]
        · simp [Nat.not_le.2 h]
      have noneClosed : closedWindow (getCore s c) off data.length = none := List.find?_eq_none.2 fun w hw => by
        obtain ⟨-, ⟨h, g⟩ | h⟩ := shut w (List.mem_range.1 hw)
        · simp [h, g]
        · simp [h]
      exact dropped _ (.inl ⟨checkPoint_none (fun _ => running) noneOpen noneClosed, rfl⟩)

/-! ### Commits (R146, R173) -/

section

variable {s t : State} {c pid req e : Nat} {h : HeldPkt} {p : Pkt} {o : OutReq} {data : List (Option Byte)}

/-- A held write to a core without flipped cells: its masked bytes take the window's place. -/
theorem commitHeld_write (hr : h.red = none) (hf : (getCore s c).spmFlips = []) :
    ∃ t, commitHeld c h s = (t, none) ∧ WindowWritten c h.off h.data s t := by
  have counted := Counted_countAct (c := lciDc c) (n := 1) (s := s) akSpm
  obtain ⟨cores, -⟩ := Counted_fields counted
  obtain ⟨t, hw, written⟩ := spmWrite_unflipped (off := h.off) (data := h.data) ((congrArg Core.spmFlips (getCore_congr cores c)).trans hf)
  exact ⟨t, by simp only [commitHeld, hr, hw], written.after_count counted⟩

/-- A held reduction: its elements are added to those of the window (R171). -/
theorem commitHeld_reduction {f : Nat} (hr : h.red = some f) (hf : (getCore s c).spmFlips = []) : ∃ t, commitHeld c h s = (t, none) ∧
    WindowWritten c h.off (redSum f ((spmBytes s c h.off h.data.length).map some) h.data) s t := by
  have counted := Counted_countAct (c := lciDc c) (n := 2) (s := s) akSpm
  obtain ⟨cores, -⟩ := Counted_fields counted
  have unflipped := (congrArg Core.spmFlips (getCore_congr cores c)).trans hf
  obtain ⟨t, hw, written⟩ := spmWrite_unflipped (off := h.off)
    (data := redSum f ((spmBytes s c h.off h.data.length).map some) h.data) unflipped
  refine ⟨t, ?_, written.after_count counted⟩
  simp only [commitHeld, hr, spmScan_unflipped unflipped, spmBytes_congr cores (countAct_fields akSpm s).1, hw]

/-- A packet whose turn has come, at a core that runs, leaves its owner with the answer COMMIT. -/
theorem commitPkt_commits (hh : (getCore s c).held.find? (fun x => x.pid == pid) = some h) (hp : findPkt s pid = some p)
    (hm : mayCommit s (getCore s c) h = true) (hl : coreLive s c = true) (hc : commitHeld c h s = (t, none)) :
    commitPkt c pid s =
      dropPkt pid (answerPkt p .commit 0 (updCore t c fun k => { k with held := k.held.filter fun x => x.pid != pid })) := by
  simp only [commitPkt, hh, hp, hm, hl, Bool.and_self, if_true, hc]

/-! ### Remote reads (R141) and their responses (R163) -/

/-- A core that is switched off, or was reset while the request was on its way, answers no data. -/
theorem remoteRead_dead (hd : coreLive s c = false ∨ p.stale = true) :
    remoteRead c p s = dropPkt p.id (respondPkt p .resetAbort 0 [] s) := by
  have dead : (!coreLive s c || p.stale) = true := by rcases hd with hd | hd <;> simp [hd]
  simp only [remoteRead, dead, if_true]

/-- A read of a core without flipped cells answers the bytes that stand there. -/
theorem remoteRead_unflipped (hl : coreLive s c = true) (hs : p.stale = false) (hf : (getCore s c).spmFlips = []) :
    remoteRead c p s = dropPkt p.id (respondPkt p .commit 0
      (windowBytes (countAct (lciDc c) akSpm 1 s) c (p.addr % 32768) p.len) (countAct (lciDc c) akSpm 1 s)) := by
  obtain ⟨cores, -⟩ := Counted_fields (Counted_countAct (c := lciDc c) (n := 1) (s := s) akSpm)
  have unflipped := (congrArg Core.spmFlips (getCore_congr cores c)).trans hf
  simp only [remoteRead, hl, hs, Bool.not_true, Bool.or_self, Bool.false_eq_true, if_false, spmScan_unflipped unflipped]

/-- A remote read that stands at its owner passes its port's output and is read. -/
theorem exec_remoteRead (hw : awake s = true) (ha : atCore s pid .readReq = some (c, p)) :
    exec (.remoteReadArrive pid []) s = .next (ofPackage s (remoteRead c p (passOut p s))) := by
  change execRemoteReadArrive pid [] s = _
  simp only [execRemoteReadArrive, ha, List.filter_nil, live_awake hw]
  rfl

/-- What a core no longer holds once one of its reads is answered: the request, and its macro-op's wait for it (R162). -/
def readSettled (req : Nat) (o : OutReq) (k : Core) : Core :=
  { k with
    out := k.out.filter fun x => x.pid != req
    ops := mapIf (fun q => q.id == o.op) (fun q => { q with waits := setDel q.waits req }) k.ops }

/-- A read answered with data, at a core none of whose cells is flipped or stuck. -/
theorem settleRead_commit (ho : (getCore s c).out.find? (fun o => o.pid == req) = some o) (hf : (getCore s c).spmFlips = [])
    (hs : s.stuck = []) (hd : data.all (·.isNone) = false) :
    settleRead c req .commit e data s =
      updCore (countRx (.core c) data.length (updCore s c (readSettled req o))) c fun k => { k with
        spm := memMask k.spm o.loc data
        lineValid := (linesOf o.loc data.length).foldl setIns k.lineValid
        spmFlips := [] } := by
  obtain ⟨cores, -, -, stuck, -⟩ := Counted_fields (Counted_countRx (n := data.length) (s := updCore s c (readSettled req o)) (.core c))
  have unflipped : (getCore (countRx (.core c) data.length (updCore s c (readSettled req o))) c).spmFlips = [] := by
    rw [getCore_congr cores, getCore_updCore_same]
    exact hf
  obtain ⟨ws, hw⟩ := spmWrite_unflipped_some (off := o.loc) unflipped hd
  unfold readSettled at hw stuck ⊢
  simp only [settleRead, ho, hw]
  rw [restick, updCore_stuck, stuck, updCore_stuck, hs]
  rfl

end

/-- Settles O22: the bytes are those of the window's write (`WindowWritten.bytes`), the packets those of the answer sent. -/
theorem packetCommits : Obligations.PacketCommits := by
  intro s c pid h p hw hh hp hm on unflipped bs hbs
  have commits : ∃ t, commitHeld c h s = (t, none) ∧ WindowWritten c h.off bs s t := by
    cases hr : h.red with
    | none => rw [hbs, hr]; exact commitHeld_write hr unflipped
    | some f => rw [hbs, hr]; exact commitHeld_reduction hr unflipped
  obtain ⟨t, committed, written⟩ := commits
  obtain ⟨mem, net, blocked⟩ := written.fields
  have answered := commitPkt_commits hh hp hm (coreLive_of_on on) committed
  obtain ⟨pkts, cores, sameMem⟩ := ofPackage_sendPkt (s := s)
    (u := updCore t c fun k => { k with held := k.held.filter fun x => x.pid != pid }) blocked pid
    { blankPkt .answer p.dst p.src 0 p.part with req := p.id, status := .commit, errAddr := 0 }
  have core := (getCore_congr cores c).trans (getCore_updCore_same ..)
  rw [updCore_net, net] at pkts
  refine ⟨_, _, (live_awake hw _).trans (by rw [answered]; rfl), fun x => ?bytes, ?held, sameMem.trans mem, pkts, rfl, rfl, rfl, rfl⟩
  case bytes => exact (congrArg (fun k : Core => memByte k.spm x) core).trans (written.bytes x)
  case held => exact (congrArg Core.held core).trans (congrArg _ written.held)

/-- Settles O23: the request by whether its core runs (`remoteRead_unflipped`), the response by the write of its line (`settleRead_commit`). -/
theorem remoteReads : Obligations.RemoteReads := by
  refine ⟨?request, ?response⟩
  case request =>
    intro s c pid p hw ha
    obtain ⟨cores, clusters, mem, -, -, -, -, pkts, -⟩ := OnlyPassed_fields (OnlyPassed_passOut (s := s) p)
    have live : coreLive (passOut p s) c = coreLive s c := OnlyPassed_coreLive (OnlyPassed_passOut p) c
    refine ⟨fun on fresh unflipped => ?_, fun dead => ?_⟩
    · obtain ⟨counted, countedMem, net, -, blocked⟩ :=
        Counted_fields (Counted_countAct (c := lciDc c) (n := 1) (s := passOut p s) akSpm)
      obtain ⟨passedDev, -⟩ := passOut_fixed p s
      obtain ⟨sameClusters, sameDev⟩ := countAct_fields (c := lciDc c) (n := 1) akSpm (passOut p s)
      have read := remoteRead_unflipped (live.trans (coreLive_of_on on)) fresh
        ((congrArg Core.spmFlips (getCore_congr cores c)).trans unflipped)
      have contents : windowBytes (countAct (lciDc c) akSpm 1 (passOut p s)) c (p.addr % 32768) p.len =
          windowBytes s c (p.addr % 32768) p.len :=
        windowBytes_congr (counted.trans cores) (sameClusters.trans clusters) (sameDev.trans passedDev)
      rw [contents] at read
      obtain ⟨sent, sentCores, sentMem⟩ := ofPackage_sendPkt (blocked.trans (passOut_blocked p s)) p.id
        { blankPkt .readResp p.dst p.src 1 p.part with
          req := p.id, status := .commit, errAddr := 0, data := (windowBytes s c (p.addr % 32768) p.len).map some }
      rw [net, pkts] at sent
      exact ⟨_, _, (exec_remoteRead hw ha).trans (by rw [read]; rfl), sent, rfl, rfl, rfl, rfl, rfl,
        sentCores.trans (counted.trans cores), sentMem.trans (countedMem.trans mem)⟩
    · rw [exec_remoteRead hw ha, remoteRead_dead (dead.imp_left fun off => live.trans (coreLive_of_off off))]
  case response =>
    rintro s c pid p o hw ha ho status unflipped sound ⟨b, hb, given⟩ u rfl
    obtain ⟨cores, -⟩ := OnlyPassed_fields (OnlyPassed_passOut (s := s) p)
    obtain ⟨-, stuck⟩ := passOut_fixed p s
    have core : getCore (dropPkt pid (passOut p s)) c = getCore s c := getCore_congr cores c
    have data : p.data.all (·.isNone) = false := List.all_eq_false.2 ⟨b, hb, by simpa [Option.isSome_iff_ne_none] using given⟩
    change live s (readResponse pid s) = _
    rw [live_awake hw, readResponse, ha]
    simp only [status]
    rw [settleRead_commit (s := dropPkt pid (passOut p s)) (core.symm ▸ ho) (core.symm ▸ unflipped) (stuck.trans sound) data]
    rfl

end Sys2Proof.Machine
end

section
/-! PROOFS. What each function of the model leaves of the memory: those that no store reaches keep all of it, a few that mark a wait or a fill keep
its bytes. -/

namespace Sys2Proof.Machine
variable {s : State}

/-! ### Ops -/

@[simp] theorem forEach_mem {α : Type} {f : State → α → State} (h : ∀ s x, (f s x).mem = s.mem) (xs : List α) :
    (forEach xs f s).mem = s.mem := by
  induction xs generalizing s with
  | nil => rfl
  | cons x xs ih => exact ih.trans (h s x)

@[simp] theorem ite_mem (p : Prop) [Decidable p] (t u : State) : (if p then t else u).mem = if p then t.mem else u.mem := apply_ite ..
@[simp] theorem ite_fst {α β : Type} (p : Prop) [Decidable p] (t u : α × β) : (if p then t else u).1 = if p then t.1 else u.1 := apply_ite ..

theorem foldl_fst_mem {α β : Type} {f : State × β → α → State × β} (h : ∀ r x, (f r x).1.mem = r.1.mem)
    (xs : List α) (r : State × β) :
    (xs.foldl f r).1.mem = r.1.mem := by
  induction xs generalizing r with
  | nil => rfl
  | cons x xs ih => exact (ih (f r x)).trans (h r x)

@[simp] theorem noteWait_bytes (w : Option Wait) : (noteWait w s).mem.bytes = s.mem.bytes := by
  unfold noteWait
  split
  · split <;> rfl
  · rfl

@[simp] theorem updSeq_mem (dc n : Nat) (f : Seqr → Seqr) : (updSeq s dc n f).mem = s.mem := by simp [updSeq]
@[simp] theorem updMDie_mem (k d : Nat) (f : MDie → MDie) : (updMDie s k d f).mem = s.mem := by simp [updMDie]
@[simp] theorem updRgn_mem (k d : Nat) (f : Rgn → Rgn) : (updRgn s k d f).mem = s.mem := by simp [updRgn]
@[simp] theorem updSite_mem (k d : Nat) (f : Site → Site) : (updSite s k d f).mem = s.mem := by simp [updSite]

@[simp] theorem block_mem (w : Wait) : (block w s).mem = s.mem := by
  unfold block
  split <;> rfl

@[simp] theorem countAct_mem (dc kind n : Nat) : (countAct dc kind n s).mem = s.mem := by
  unfold countAct
  split <;> rfl

@[simp] theorem drawFree_mem : (drawFree s).2.mem = s.mem := rfl

/-! ### Paths -/

@[simp] theorem passOut_mem (p : Pkt) : (passOut p s).mem = s.mem := by
  unfold passOut
  split <;> rfl

@[simp] theorem countRetry_mem (h : Hop) : (countRetry h s).mem = s.mem := by
  unfold countRetry
  split <;> rfl

@[simp] theorem countPlane_mem (n i : Nat) : (countPlane n i s).mem = s.mem := by simp [countPlane]

@[simp] theorem countSpine_mem (n : Nat) (sw : Option SwitchName) : (countSpine n sw s).mem = s.mem := by
  unfold countSpine
  split <;> rfl

@[simp] theorem crossWay_mem (kind : PktKind) (src dst : Endpoint) (n : Nat) : (crossWay kind src dst n s).1.mem = s.mem := by
  unfold crossWay
  dsimp only
  split <;> simp

@[simp] theorem crossNow_mem (kind : PktKind) (src dst : Endpoint) (n : Nat) : (crossNow kind src dst n s).1.mem = s.mem := by simp [crossNow]

@[simp] theorem overFabric_mem (kind : PktKind) (src dst : Endpoint) (back : PktKind) (addr n : Nat) (deliver : State → State × FabStatus × Nat)
    (hd : ∀ s, (deliver s).1.mem = s.mem) : (overFabric kind src dst back addr n deliver s).1.mem = s.mem := by
  unfold overFabric; dsimp only; (repeat' split) <;> simp [hd]

/-! ### Flags -/

@[simp] theorem putLog_mem (code sev part : Nat) (data : List Byte) : (putLog code sev part data s).mem = s.mem := by simp [putLog]

@[simp] theorem queueEvent_mem (a code : Nat) (result : List Byte) : (queueEvent a code result s).mem = s.mem := by
  unfold queueEvent
  split <;> rfl

@[simp] theorem queueLead_mem (q code : Nat) (result : List Byte) : (queueLead q code result s).mem = s.mem := by
  unfold queueLead
  split <;> simp

@[simp] theorem raiseEvent_mem (code sev : Nat) (sc : Scope) (result : List Byte) : (raiseEvent code sev sc result s).mem = s.mem := by
  unfold raiseEvent
  split <;> simp

@[simp] theorem reportFrom_mem (src : Endpoint) (code sev : Nat) (sc : Scope) (result : List Byte) :
    (reportFrom src code sev sc result s).mem = s.mem := by simp [reportFrom]

@[simp] theorem warn_mem (src code b4 b5 b6 : Nat) : (warn src code b4 b5 b6 s).mem = s.mem := raiseEvent_mem ..
@[simp] theorem warnSevere_mem (src code b4 b5 b6 : Nat) : (warnSevere src code b4 b5 b6 s).mem = s.mem := raiseEvent_mem ..
@[simp] theorem streamEvent_mem (c code opcode : Nat) : (streamEvent c code opcode s).mem = s.mem := by simp [streamEvent]
@[simp] theorem coreEvent_mem (c code opcode : Nat) : (coreEvent c code opcode s).mem = s.mem := streamEvent_mem ..
@[simp] theorem coreEvents_mem (n c code opcode : Nat) : (coreEvents n c code opcode s).mem = s.mem := by simp [coreEvents]
@[simp] theorem incFlag_mem (c f srcOp : Nat) : (incFlag c f srcOp s).mem = s.mem := by simp [incFlag]
@[simp] theorem streamEnd_mem (dc n : Nat) (aborted : Bool) : (streamEnd dc n aborted s).mem = s.mem := reportFrom_mem ..
@[simp] theorem checkSeqEnd_mem (dc n : Nat) : (checkSeqEnd dc n s).mem = s.mem := by simp [checkSeqEnd]
@[simp] theorem stopFault_mem (c code opcode maddr addr : Nat) : (stopFault c code opcode maddr addr s).mem = s.mem := by simp [stopFault]
@[simp] theorem settleCore_mem (c : Nat) : (settleCore c s).mem = s.mem := by simp [settleCore]
@[simp] theorem drainCores_mem (dc n : Nat) (abort : Bool) : (drainCores dc n abort s).mem = s.mem := by simp [drainCores]
@[simp] theorem seqFault_mem (dc n code : Nat) : (seqFault dc n code s).mem = s.mem := (drainCores_mem ..).trans (reportFrom_mem ..)
@[simp] theorem seqAbort_mem (dc n : Nat) : (seqAbort dc n s).mem = s.mem := by simp [seqAbort]

/-! ### HostRec -/

@[simp] theorem landUnit_mem (a x : Nat) (bs : List Byte) : (landUnit a x bs s).mem = s.mem := by
  simp only [landUnit, apply_ite State.mem, updAp_mem, ite_self]

@[simp] theorem apertureWrite_mem (off : Nat) (bs : List Byte) : (apertureWrite off bs s).mem = s.mem := by
  have piece : ∀ (u : State) (i : Nat), (let o := off + 16 * i
      landUnit (o / 0x100_0000) (o % 0x100_0000) (bytesAt bs (16 * i) 16) u).mem = u.mem := fun u i => by
    rw [show (let o := off + 16 * i; landUnit (o / 0x100_0000) (o % 0x100_0000) (bytesAt bs (16 * i) 16) u) =
      landUnit ((off + 16 * i) / 0x100_0000) ((off + 16 * i) % 0x100_0000) (bytesAt bs (16 * i) 16) u from rfl, landUnit_mem]
  unfold apertureWrite
  split
  · rfl
  · split
    · rfl
    · exact forEach_mem piece _

@[simp] theorem pushReply_mem (a st code seq tag : Nat) (result : List Byte) : (pushReply a st code seq tag result s).mem = s.mem := by
  unfold pushReply
  split <;> rfl

@[simp] theorem finish_mem (a st : Nat) (result : List Byte) : (finish a st result s).mem = s.mem := by
  unfold finish
  split <;> rfl

@[simp] theorem acceptCmd_mem (a slot : Nat) (bs ps : List Byte) (count : Nat) : (acceptCmd a slot bs ps count s).mem = s.mem := by
  unfold acceptCmd
  split <;> rfl

@[simp] theorem answerAuth_mem (a slot : Nat) (bs : List Byte) : (answerAuth a slot bs s).mem = s.mem := rfl

@[simp] theorem examine_mem (a : Nat) (p : RawPkt) : (examine a p s).mem = s.mem := by
  unfold examine
  dsimp only
  (repeat' split) <;> simp

@[simp] theorem advanceAp_mem (a : Nat) : (advanceAp a s).mem = s.mem := by
  unfold advanceAp
  dsimp only
  (repeat' split) <;> simp

@[simp] theorem packetTake_mem (a : Nat) : (packetTake a s).mem = s.mem := by simp [packetTake]
@[simp] theorem postWrite_mem (addr : Nat) (bs : List Byte) : (postWrite addr bs s).mem = s.mem := rfl
@[simp] theorem readHost_mem (addr n : Nat) : (readHost addr n s).mem = s.mem := rfl

@[simp] theorem hostAnswered_mem (n : Nat) (data tag : List Byte) : (hostAnswered n data tag s).mem = s.mem := by
  unfold hostAnswered
  split <;> rfl

@[simp] theorem writeRecord_mem (a kind st code seq tag : Nat) (result : List Byte) (clear : Bool) :
    (writeRecord a kind st code seq tag result clear s).mem = s.mem := by
  unfold writeRecord
  split <;> rfl

theorem writeReply_mem {a : Nat} {r : State × Rec} (h : writeReply a s = some r) : r.1.mem = s.mem := by
  unfold writeReply at h
  dsimp only at h
  split at h
  · cases h
  · split at h
    · cases h
      exact writeRecord_mem ..
    · cases h

@[simp] theorem lostWrite_mem (a : Nat) : (lostWrite a s).mem = s.mem := (writeRecord_mem ..).trans (putLog_mem ..)

@[simp] theorem eventWrite_mem (a : Nat) : (eventWrite a s).mem = s.mem := by
  unfold eventWrite
  dsimp only
  (repeat' split) <;> simp

@[simp] theorem signalVec_mem (v : Nat) : (signalVec v s).mem = s.mem := by
  unfold signalVec
  split <;> rfl

@[simp] theorem msixSignal_mem (a : Nat) (aged : Bool) : (msixSignal a aged s).mem = s.mem := by simp [msixSignal]
@[simp] theorem takeTurn_mem (a : Nat) : (takeTurn a s).mem = s.mem := rfl

@[simp] theorem cmdRun_mem (a op : Nat) (refs : Cmd → State → Option (Nat × Nat)) (legal : State → Bool) (body : Cmd → State → State)
    (hb : ∀ c s, (body c s).mem = s.mem) : (cmdRun a op refs legal body s).mem = s.mem := by
  unfold cmdRun; (repeat' split) <;> simp [hb]

@[simp] theorem updCur_mem (a : Nat) (f : Cmd → Cmd) : (updCur a f s).mem = s.mem := rfl
@[simp] theorem startCmd_mem (a aux : Nat) : (startCmd a aux s).mem = s.mem := rfl

/-! ### Flash -/

@[simp] theorem program_mem (i : Nat) (bs : List Byte) : (program i bs s).mem = s.mem := rfl
@[simp] theorem countErase_mem (n : Nat) : (countErase n s).mem = s.mem := by simp [countErase]

@[simp] theorem areaWriteBy_mem (erase : Nat → State → State) (a : Area) (at_ : AreaAt) (fields : State → Nat → List Byte)
    (he : ∀ n s, (erase n s).mem = s.mem) : (areaWriteBy erase a at_ fields s).1.mem = s.mem := forEach_mem (fun s n => he n s) _

@[simp] theorem writeWear_mem : (writeWear s).mem = s.mem := by
  unfold writeWear
  exact (updDev_mem ..).trans (areaWriteBy_mem _ _ _ _ fun n s => countErase_mem n)

@[simp] theorem eraseSector_mem (n : Nat) : (eraseSector n s).mem = s.mem := by simp [eraseSector]
@[simp] theorem areaWrite_mem (a : Area) (at_ : AreaAt) (fields : Nat → List Byte) : (areaWrite a at_ fields s).1.mem = s.mem := by simp [areaWrite]

@[simp] theorem readWear_mem : (readWear s).mem = s.mem := by
  unfold readWear
  split <;> rfl

@[simp] theorem writeSector_mem (at_ : Nat) (data : List Byte) : (writeSector at_ data s).mem = s.mem :=
  (program_mem ..).trans (eraseSector_mem ..)

@[simp] theorem readBootControl_mem : (readBootControl s).mem = s.mem := by
  unfold readBootControl
  split <;> rfl

@[simp] theorem writeBootControl_mem : (writeBootControl s).mem = s.mem := by
  unfold writeBootControl
  exact (updDev_mem ..).trans (areaWrite_mem ..)

@[simp] theorem writeRepair_mem (es : List Nat) : (writeRepair es s).mem = s.mem := by
  unfold writeRepair
  exact (updDev_mem ..).trans (areaWrite_mem ..)

@[simp] theorem repairPut_mem (e : Nat) : (repairPut e s).mem = s.mem := by simp [repairPut]
@[simp] theorem repairAdd_mem (e : Nat) : (repairAdd e s).mem = s.mem := by simp [repairAdd]
@[simp] theorem repairCoreCol_mem (c : Nat) : (repairCoreCol c s).mem = s.mem := repairAdd_mem ..

@[simp] theorem readRepair_mem : (readRepair s).mem = s.mem := by
  unfold readRepair
  split <;> rfl

@[simp] theorem plogSeal_mem (i : Nat) : (plogSeal i s).mem = s.mem := rfl

@[simp] theorem plogPlace_mem : (plogPlace s).mem = s.mem := by
  unfold plogPlace
  split
  · rfl
  · exact updDev_mem ..

@[simp] theorem plogAppend_mem (e : LogEnt) : (plogAppend e s).mem = s.mem := by simp [plogAppend]
@[simp] theorem plogFind_mem : (plogFind s).mem = s.mem := (forEach_mem (fun _ i => plogSeal_mem i) _).trans plogPlace_mem

/-! ### Memory -/

@[simp] theorem memErrorEvent_mem (addr unit mdie cls rq stk sev : Nat) :
    (memErrorEvent addr unit mdie cls rq stk sev s).mem = s.mem := raiseEvent_mem ..

@[simp] theorem repairRow_mem (l : Nat) : (repairRow l s).mem = s.mem := repairAdd_mem ..
@[simp] theorem repairGroup_mem (l g : Nat) : (repairGroup l g s).mem = s.mem := repairAdd_mem ..
@[simp] theorem repairFromLog_mem (stk l : Nat) (pos : List Nat) : (repairFromLog stk l pos s).mem = s.mem := by simp [repairFromLog]

@[simp] theorem logCorrected_mem (stk addr unit mdie nsym pos0 pos1 : Nat) :
    (logCorrected stk addr unit mdie nsym pos0 pos1 s).mem = s.mem := by simp [logCorrected]

@[simp] theorem resettle_bytes (ws : List Nat) : (resettle ws s).mem.bytes = s.mem.bytes := by
  unfold resettle
  split <;> rfl

@[simp] theorem noteCorrected_mem (w : Nat) (pos : List Nat) : (noteCorrected w pos s).mem = s.mem := by simp [noteCorrected]
@[simp] theorem notePoisoned_bytes (w rq : Nat) : (notePoisoned w rq s).mem.bytes = s.mem.bytes := by simp [notePoisoned]
@[simp] theorem countMem_mem (loc n : Nat) : (countMem loc n s).mem = s.mem := by simp [countMem]
@[simp] theorem fillEnd_bytes (page : Nat) : (fillEnd page s).mem.bytes = s.mem.bytes := resettle_bytes ..

@[simp] theorem fillWaitNow_bytes (loc : Nat) : (fillWaitNow loc s).mem.bytes = s.mem.bytes := by
  unfold fillWaitNow
  (repeat' split) <;> simp

@[simp] theorem kvWriteSnoop_mem (loc n : Nat) : (kvWriteSnoop loc n s).mem = s.mem := by simp [kvWriteSnoop]

@[simp] theorem strike_bytes (w : Nat) (errs : List (Nat × Nat × Bool)) : (strike w errs s).mem.bytes = s.mem.bytes := by
  unfold strike
  dsimp only
  split <;> simp

@[simp] theorem storeFail_bytes (l : Nat) : (storeFail l s).mem.bytes = s.mem.bytes := by
  unfold storeFail
  split <;> rfl

@[simp] theorem restick_mem (c : Nat) (ws : List Nat) : (restick c ws s).mem = s.mem := by
  unfold restick
  split <;> rfl

@[simp] theorem spmStrike_mem (c w p : Nat) (stick : Option Bool) : (spmStrike c w p stick s).mem = s.mem := by
  unfold spmStrike
  dsimp only
  (repeat' split) <;> simp

@[simp] theorem spmReadWord_mem (c w rq : Nat) : (spmReadWord c w rq s).1.mem = s.mem := by
  unfold spmReadWord
  dsimp only
  split <;> simp

@[simp] theorem spmReadWords_mem (c rq : Nat) (ws : List Nat) : (spmReadWords c rq ws s).1.mem = s.mem := by
  induction ws generalizing s with
  | nil => rfl
  | cons w ws ih => simp [spmReadWords, ih]

@[simp] theorem spmScan_mem (c rq : Nat) (rs : List (Nat × Nat)) : (spmScan c rq rs s).1.mem = s.mem := spmReadWords_mem ..

@[simp] theorem spmWrite_mem (c off : Nat) (data : List (Option Byte)) : (spmWrite c off data s).1.mem = s.mem := by
  unfold spmWrite
  dsimp only
  (repeat' split) <;> simp

@[simp] theorem spmPut_mem (c off : Nat) (data : List Byte) : (spmPut c off data s).1.mem = s.mem := spmWrite_mem ..

/-! ### Translate -/

@[simp] theorem updX_mem (u : UnitName) (f : XUnit → XUnit) : (updX s u f).mem = s.mem := by
  unfold updX
  split <;> rfl

@[simp] theorem waitBank_bytes (l : Nat) (src : Endpoint) : (waitBank l src s).mem.bytes = s.mem.bytes := by
  unfold waitBank
  split <;> rfl

@[simp] theorem xlLook_mem (u : UnitName) (part : Option Nat) (va : Nat) : (xlLook u part va s).1.mem = s.mem := by
  unfold xlLook
  dsimp only
  (repeat' split) <;> simp

@[simp] theorem startInv_mem (u : UnitName) : (startInv u s).mem = s.mem := by simp [startInv]
@[simp] theorem queueInv_mem (u : UnitName) (what : Option Nat) (part ap : Option Nat) : (queueInv u what part ap s).mem = s.mem := by simp [queueInv]
@[simp] theorem nextInv_mem (u : UnitName) : (nextInv u s).mem = s.mem := (startInv_mem ..).trans (updX_mem ..)

/-! ### Operands -/

@[simp] theorem writeRuns_mem (c : Nat) (rs : List (Nat × Nat)) (bs : List Byte) : (writeRuns c rs bs s).1.mem = s.mem := by
  induction rs generalizing bs s with
  | nil => rfl
  | cons r rs ih => unfold writeRuns; dsimp only; split <;> simp [ih]

/-! ### EngineOps -/

@[simp] theorem opaRun_mem (c : Nat) (x : Args) : (opaRun c x s).mem = s.mem := (coreEvents_mem ..).trans (countAct_mem ..)
@[simp] theorem aczRun_mem (c : Nat) (x : Args) : (aczRun c x s).mem = s.mem := rfl
@[simp] theorem acsRun_mem (c : Nat) (x : Args) : (acsRun c x s).mem = s.mem := rfl
@[simp] theorem acdRun_mem (c : Nat) (x : Args) : (acdRun c x s).1.mem = s.mem := spmPut_mem ..

/-! ### QuantOps -/

@[simp] theorem putAll_mem (c base : Nat) (ws : List (Nat × List Byte)) : (putAll c base ws s).1.mem = s.mem := by
  induction ws generalizing s with
  | nil => rfl
  | cons w ws ih => unfold putAll; dsimp only; split <;> simp [ih]

@[simp] theorem qntBlocks_mem (c : Nat) (x : Args) (e : Nat) (bs : List Nat) : (qntBlocks c x e bs s).1.mem = s.mem := by
  induction bs generalizing s with
  | nil => rfl
  | cons b bs ih => unfold qntBlocks; dsimp only; split <;> simp [ih]

@[simp] theorem qntBf_mem (c : Nat) (x : Args) (bs : List Nat) (bad : Bool) : (qntBf c x bs bad s).1.mem = s.mem := by
  induction bs generalizing bad s with
  | nil => rfl
  | cons b bs ih => unfold qntBf; dsimp only; split <;> simp [ih]

@[simp] theorem qntRun_mem (c : Nat) (x : Args) : (qntRun c x s).1.mem = s.mem := by
  unfold qntRun
  dsimp only
  (repeat' split) <;> simp

@[simp] theorem sclRun_mem (c : Nat) (x : Args) : ((sclRun c x s).1).mem = s.mem := by
  unfold sclRun
  dsimp only
  split
  · exact forEach_mem (fun _ _ => updCore_mem ..) _
  · exact writeRuns_mem ..
  · exact forEach_mem (fun _ _ => updCore_mem ..) _

/-! ### CorePage -/

@[simp] theorem pageWriteRange_mem (c off : Nat) (data : List (Option Byte)) : ((pageWriteRange c off data s).1).mem = s.mem := by
  unfold pageWriteRange
  split
  · rfl
  · exact forEach_mem (f := fun s (u : Nat × Nat) => updCore s c (pageWrite u.1 u.2)) (fun _ _ => rfl) _

/-! ### Packets -/

@[simp] theorem countTx_mem (src : Endpoint) (n : Nat) : (countTx src n s).mem = s.mem := by
  unfold countTx
  split <;> simp

@[simp] theorem countRx_mem (dst : Endpoint) (n : Nat) : (countRx dst n s).mem = s.mem := by
  unfold countRx
  split <;> rfl

@[simp] theorem sendPkt_mem (p : Pkt) : (sendPkt p s).1.mem = s.mem := countTx_mem ..
@[simp] theorem dropPkt_mem (id : Nat) : (dropPkt id s).mem = s.mem := rfl
@[simp] theorem answerPkt_mem (p : Pkt) (st : FabStatus) (errAddr : Nat) : (answerPkt p st errAddr s).mem = s.mem := sendPkt_mem ..

@[simp] theorem respondPkt_mem (p : Pkt) (st : FabStatus) (errAddr : Nat) (data : List Byte) :
    (respondPkt p st errAddr data s).mem = s.mem := sendPkt_mem ..

@[simp] theorem failPkt_mem (p : Pkt) (st : FabStatus) (errAddr : Nat) : (failPkt p st errAddr s).mem = s.mem := by simp [failPkt]
@[simp] theorem countDrop_mem (owner w : Nat) : (countDrop owner w s).mem = s.mem := rfl

@[simp] theorem commitHeld_mem (owner : Nat) (h : HeldPkt) : (commitHeld owner h s).1.mem = s.mem := by
  unfold commitHeld
  dsimp only
  (repeat' split) <;> simp

@[simp] theorem outerPut_mem (c off : Nat) (data : List (Option Byte)) : (outerPut c off data s).1.mem = s.mem := by
  unfold outerPut
  split <;> simp

@[simp] theorem admitPkt_mem (c : Nat) (p : Pkt) (ws : List Nat) (red : Option Nat) : (admitPkt c p ws red s).mem = s.mem := rfl

@[simp] theorem outsideArrive_mem (owner off : Nat) (data : List (Option Byte)) (src : Endpoint) :
    (outsideArrive owner off data src s).1.mem = s.mem := by
  unfold outsideArrive
  dsimp only
  (repeat' split) <;> simp

@[simp] theorem outsideWrite_mem (kind : PktKind) (owner off : Nat) (data : List (Option Byte)) (src : Endpoint) :
    (outsideWrite kind owner off data src s).1.mem = s.mem := by
  unfold outsideWrite
  dsimp only
  (repeat' split) <;> simp

@[simp] theorem settleWrite_mem (c req : Nat) (st : FabStatus) (errAddr : Nat) : (settleWrite c req st errAddr s).mem = s.mem := by
  unfold settleWrite
  dsimp only
  (repeat' split) <;> simp

@[simp] theorem settleRead_mem (c req : Nat) (st : FabStatus) (errAddr : Nat) (data : List (Option Byte)) :
    (settleRead c req st errAddr data s).mem = s.mem := by
  unfold settleRead
  dsimp only
  (repeat' split) <;> simp

/-! ### FarMem -/

@[simp] theorem readArrive_mem (c off n : Nat) : (readArrive c off n s).1.mem = s.mem := by
  unfold readArrive
  dsimp only
  (repeat' split) <;> simp

@[simp] theorem spmRead_mem (src : Endpoint) (a n : Nat) : (spmRead src a n s).1.mem = s.mem := by
  unfold spmRead
  refine foldl_fst_mem (fun r p => ?_) _ _
  dsimp only
  split
  · rfl
  · split <;> exact overFabric_mem _ _ _ _ _ _ _ fun s => readArrive_mem ..

/-! ### LinkTx -/

@[simp] theorem sendMsg_mem (k : Nat) (h : MsgHdr) (payload : List Byte) : (sendMsg k h payload s).mem = s.mem := rfl
@[simp] theorem sendAnswer_mem (k dpart spart mtag status : Nat) : (sendAnswer k dpart spart mtag status s).mem = s.mem := rfl
@[simp] theorem linkEvent_mem (k kind part code desc : Nat) : (linkEvent k kind part code desc s).mem = s.mem := raiseEvent_mem ..

/-! ### LinkRec -/

@[simp] theorem updChain_mem (k q : Nat) (f : Chain → Chain) : (updChain s k q f).mem = s.mem := rfl

/-! ### VectorOps -/

@[simp] theorem vopRun_mem (c : Nat) (x : Args) : (vopRun c x s).1.mem = s.mem := by simp [vopRun]
@[simp] theorem vredRun_mem (c : Nat) (x : Args) : (vredRun c x s).1.mem = s.mem := by simp [vredRun]

@[simp] theorem writeAll_mem (c : Nat) (xs : List (List (Nat × Nat) × List Byte)) : (writeAll c xs s).1.mem = s.mem := by
  induction xs generalizing s with
  | nil => rfl
  | cons x xs ih => unfold writeAll; dsimp only; split <;> simp [ih]

@[simp] theorem asmRun_mem (c : Nat) (x : Args) : (asmRun c x s).1.mem = s.mem := by
  unfold asmRun
  split <;> simp

@[simp] theorem rstRun_mem (c : Nat) (x : Args) : (rstRun c x s).1.mem = s.mem := writeRuns_mem ..
@[simp] theorem rldRun_mem (c : Nat) (x : Args) : (rldRun c x s).1.mem = s.mem := writeRuns_mem ..
@[simp] theorem filRun_mem (c : Nat) (x : Args) : (filRun c x s).1.mem = s.mem := writeRuns_mem ..
@[simp] theorem cpyRun_mem (c : Nat) (x : Args) : (cpyRun c x s).1.mem = s.mem := writeRuns_mem ..

/-! ### Units -/

@[simp] theorem updOp_mem (c id : Nat) (f : MOp → MOp) : (updOp c id f s).mem = s.mem := rfl
@[simp] theorem dropOp_mem (c id : Nat) : (dropOp c id s).mem = s.mem := rfl
@[simp] theorem opFault_mem (c : Nat) (p : MOp) (code addr : Nat) : (opFault c p code addr s).mem = s.mem := stopFault_mem ..

@[simp] theorem sendPiece_mem (c : Nat) (p : MOp) (x : Piece) : (sendPiece c p x s).1.mem = s.mem := by
  unfold sendPiece
  dsimp only
  split <;> simp

@[simp] theorem sendMore_mem (n c id : Nat) : (sendMore n c id s).mem = s.mem := by
  induction n generalizing s with
  | zero => rfl
  | succ n ih => unfold sendMore; dsimp only; (repeat' split) <;> simp [ih]

@[simp] theorem sendAll_mem (c : Nat) : (sendAll c s).mem = s.mem := by simp [sendAll]

@[simp] theorem takePage_mem (c id pg : Nat) (t : Tlb) : (takePage c id pg t s).mem = s.mem := by
  unfold takePage
  split <;> simp

@[simp] theorem needPage_mem (c id pg : Nat) : (needPage c id pg s).mem = s.mem := by
  unfold needPage
  dsimp only
  (repeat' split) <;> simp

@[simp] theorem resolveOp_mem (c id : Nat) : (resolveOp c id s).mem = s.mem := by
  unfold resolveOp
  split
  · rfl
  · split
    · rfl
    · extract_lets s1 s2
      have pages : s1.mem = s.mem := forEach_mem (fun s pg => by (repeat' split) <;> simp) _
      have formed : s2.mem = s.mem := (updOp_mem ..).trans pages
      clear_value s2 s1
      (repeat' split) <;> simp [pages, formed]

@[simp] theorem unitEffect_mem (c : Nat) (x : Args) : (unitEffect c x s).1.mem = s.mem := by simp [unitEffect]

@[simp] theorem startOp_mem (c : Nat) (p : MOp) : (startOp c p s).mem = s.mem := by
  unfold startOp
  dsimp only
  (repeat' split) <;> simp only [opFault_mem, resolveOp_mem, updClu_mem, updOp_mem, countAct_mem, unitEffect_mem, spmScan_mem]

@[simp] theorem pump_mem (c : Nat) : (pump c s).mem = s.mem := by
  unfold pump
  refine (settleCore_mem c).trans (forEach_mem (fun s id => ?_) _)
  dsimp only
  (repeat' split) <;> simp

@[simp] theorem popQueue_mem (c : Nat) : (popQueue c s).mem = s.mem := rfl

@[simp] theorem enterUnit_mem (c : Nat) (u : UnitKind) (e : QEnt) : (enterUnit c u e s).mem = s.mem := by
  unfold enterUnit
  split <;> rfl

@[simp] theorem dispatchUnit_mem (c o : Nat) : (dispatchUnit c o s).mem = s.mem := by
  unfold dispatchUnit
  dsimp only
  (repeat' split) <;> simp

@[simp] theorem dispatchCtrl_mem (c o : Nat) (f : QEnt → State → State) (hf : ∀ e s, (f e s).mem = s.mem) :
    (dispatchCtrl c o f s).mem = s.mem := by
  unfold dispatchCtrl; dsimp only; (repeat' split) <;> simp [hf]

/-! ### SpringCmds -/

@[simp] theorem updSpr_mem (dc : Nat) (f : SprQ → SprQ) : (updSpr s dc f).mem = s.mem := rfl
@[simp] theorem sprEvent_mem (dc : Nat) (q : SprSeq) (rec : List Byte) : (sprEvent dc q rec s).mem = s.mem := reportFrom_mem ..

@[simp] theorem sprStart_mem (dc : Nat) : (sprStart dc s).mem = s.mem := by
  unfold sprStart
  split <;> rfl

@[simp] theorem sprDrop_mem (dc id : Nat) : (sprDrop dc id s).mem = s.mem := rfl

@[simp] theorem spqTaken_mem (w : SprWait) : (spqTaken w s).mem = s.mem := by
  unfold spqTaken
  split <;> rfl

@[simp] theorem sprQueue_mem (dc : Nat) (desc : List Byte) (recAddr : Nat) : (sprQueue dc desc recAddr s).mem = s.mem := rfl

/-! ### Dma -/

@[simp] theorem updDma_mem (dc : Nat) (f : Dma → Dma) : (updDma s dc f).mem = s.mem := rfl
@[simp] theorem dmaError_mem (dc code : Nat) : (dmaError dc code s).mem = s.mem := reportFrom_mem ..

@[simp] theorem dmaBegin_mem (dc : Nat) (d : DmaDesc) (i : Nat) : (dmaBegin dc d i s).mem = s.mem := by
  unfold dmaBegin
  split <;> rfl

@[simp] theorem dmaSignal_mem (dc : Nat) (d : DmaDesc) : (dmaSignal dc d s).mem = s.mem := by simp [dmaSignal]
@[simp] theorem dmaEnded_mem (dc : Nat) : (dmaEnded dc s).mem = s.mem := rfl

@[simp] theorem dmaTake_mem (dc : Nat) : (dmaTake dc s).mem = s.mem := by
  unfold dmaTake
  dsimp only
  split <;> simp

@[simp] theorem vFail_mem (c : Nat) (u : VUser) : (vFail c u s).mem = s.mem := by
  unfold vFail
  dsimp only
  (repeat' split) <;> simp

/-! ### Registers -/

@[simp] theorem spmPwrWrite_mem (dc v : Nat) : (spmPwrWrite dc v s).mem = s.mem := by
  unfold spmPwrWrite
  dsimp only
  split
  · exact forEach_mem (fun _ _ => updCore_mem ..) _
  · exact updClu_mem ..

@[simp] theorem kvwWrite_mem (dc u v : Nat) : (kvwWrite dc u v s).mem = s.mem := by simp [kvwWrite]
@[simp] theorem xlatRootWrite_mem (dc v : Nat) : (xlatRootWrite dc v s).mem = s.mem := rfl
@[simp] theorem xlatInvWrite_mem (dc : Nat) (what : Option Nat) : (xlatInvWrite dc what s).mem = s.mem := queueInv_mem ..

@[simp] theorem stkCfgWrite_mem (k v : Nat) : (stkCfgWrite k v s).mem = s.mem := by
  unfold stkCfgWrite
  split <;> rfl

@[simp] theorem memLogClear_mem (k : Nat) : (memLogClear k s).mem = s.mem := rfl
@[simp] theorem dieWriteUnit_mem (k u v : Nat) : (dieWriteUnit k u v s).mem = s.mem := by simp [dieWriteUnit]
@[simp] theorem spmPowerDone_mem (dc : Nat) : (spmPowerDone dc s).mem = s.mem := by simp [spmPowerDone]

/-! ### Resets -/

@[simp] theorem flushHeld_mem (c : Nat) : (flushHeld c s).mem = s.mem := by
  unfold flushHeld
  refine forEach_mem (fun s h => ?_) _
  dsimp only
  (repeat' split) <;> simp

@[simp] theorem leaveBars_mem (c : Nat) : (leaveBars c s).mem = s.mem := rfl
@[simp] theorem stalePkts_mem (c : Nat) : (stalePkts c s).mem = s.mem := rfl
@[simp] theorem clearCore_mem (c : Nat) : (clearCore c s).mem = s.mem := by simp [clearCore]
@[simp] theorem seqOrphan_mem (dc n : Nat) : (seqOrphan dc n s).mem = s.mem := by simp [seqOrphan]
@[simp] theorem dropCores_mem (dc : Nat) : (dropCores dc s).mem = s.mem := by simp [dropCores]
@[simp] theorem cluOff_mem (dc : Nat) (st : PwrSt) : (cluOff dc st s).mem = s.mem := dropCores_mem ..
@[simp] theorem dropWalks_mem (dc : Nat) : (dropWalks dc s).mem = s.mem := rfl
@[simp] theorem settleInvals_mem : (settleInvals s).mem = s.mem := by simp [settleInvals]
@[simp] theorem reportStreams_mem (dc : Nat) : (reportStreams dc s).mem = s.mem := by simp [reportStreams]

@[simp] theorem resetOffEnd_mem (dc : Nat) : (resetOffEnd dc s).mem = s.mem := by
  unfold resetOffEnd
  split <;> rfl

@[simp] theorem settleDev_mem : (settleDev s).mem = s.mem := by
  unfold settleDev
  split <;> rfl

@[simp] theorem settleWarm_mem (k : Nat) : (settleWarm k s).mem = s.mem := by simp [settleWarm]
@[simp] theorem setPart_mem (q : Nat) (st : PartSt) (cause : Nat) : (setPart q st cause s).mem = s.mem := by simp [setPart]
@[simp] theorem dropAp_mem (a : Nat) : (dropAp a s).mem = s.mem := rfl
@[simp] theorem cluCycle_mem (on : Bool) (dc : Nat) : (cluCycle on s dc).mem = s.mem := rfl
@[simp] theorem dropIoXlat_mem (q : Nat) : (dropIoXlat q s).mem = s.mem := by simp [dropIoXlat]

@[simp] theorem freePart_mem (q : Nat) (hadSession : Bool) : (freePart q hadSession s).mem = s.mem := by
  unfold freePart
  refine (forEach_mem (fun _ _ => updStk_mem ..) _).trans (forEach_mem (fun s a => ?_) _)
  split <;> simp

@[simp] theorem finishReset_mem (a op : Nat) : (finishReset a op s).mem = s.mem := by
  unfold finishReset
  split <;> simp

@[simp] theorem resetDone_mem (q : Nat) : (resetDone q s).mem = s.mem := by
  unfold resetDone
  dsimp only
  (repeat' split) <;> simp

@[simp] theorem endDevSession_mem : (endDevSession s).mem = s.mem := rfl

/-! ### Bar0 -/

@[simp] theorem msixWrite_mem (i v : Nat) : (msixWrite i v s).mem = s.mem := by simp [msixWrite]

/-! ### HostData -/

@[simp] theorem postChunk_mem (ss : Session) (a count addr space haddr : Nat) (taddr : Option Nat) (i : Nat) (data : List Byte) :
    (postChunk ss a count addr space haddr taddr i data s).mem = s.mem := by
  unfold postChunk
  split <;> rfl

@[simp] theorem tookChunk_mem (a : Nat) : (tookChunk a s).mem = s.mem := rfl

@[simp] theorem postNext_mem (a : Nat) (c : Cmd) (p : PostJob) : (postNext a c p s).mem = s.mem := by
  unfold postNext
  split <;> simp

@[simp] theorem postTurns_mem (a n : Nat) : (postTurns a n s).mem = s.mem := by
  induction n generalizing s with
  | zero => rfl
  | succ n ih => unfold postTurns; (repeat' split) <;> simp [ih]

@[simp] theorem sendBlock_mem (a haddr : Nat) (taddr : Option Nat) (data result : List Byte) :
    (sendBlock a haddr taddr data result s).mem = s.mem := by simp [sendBlock]

@[simp] theorem extendDev_mem (i src code : Nat) (detail digest : List Byte) :
    (extendDev i src code detail digest s).mem = s.mem := by simp [extendDev]

@[simp] theorem extendPart_mem (q : Nat) (one : Bool) (src code : Nat) (detail digest : List Byte) :
    (extendPart q one src code detail digest s).mem = s.mem := by
  unfold extendPart
  split <;> rfl

@[simp] theorem measureCmd_mem (c : Cmd) : (measureCmd c s).mem = s.mem := rfl

/-! ### HostDev -/

@[simp] theorem identityRun_mem (a : Nat) (c : Cmd) : (identityRun a c s).mem = s.mem := by simp [identityRun]
@[simp] theorem attestRun_mem (a : Nat) (c : Cmd) : (attestRun a c s).mem = s.mem := by simp [attestRun]

@[simp] theorem kexRun_mem (a : Nat) (c : Cmd) : (kexRun a c s).mem = s.mem := by
  have opened : ∀ (bs : List Nat) (t : State), (forEach bs (fun s b => updAp s b freshCounts) t).mem = t.mem :=
    fun bs t => forEach_mem (fun _ _ => updAp_mem ..) bs
  unfold kexRun
  dsimp only
  rw [updAp_mem]
  split
  · rw [opened, updPart_mem, finish_mem, postWrite_mem, drawFree_mem]
  · rw [updAp_mem, updDev_mem, finish_mem, postWrite_mem, drawFree_mem]

@[simp] theorem logReadRun_mem (a : Nat) (c : Cmd) : (logReadRun a c s).mem = s.mem := sendBlock_mem ..

@[simp] theorem logClearRun_mem (a : Nat) (c : Cmd) : (logClearRun a c s).mem = s.mem := by
  unfold logClearRun
  extract_lets m s1
  refine (finish_mem ..).trans ((forEach_mem (fun _ _ => memLogClear_mem ..) _).trans ?_)
  unfold s1
  split <;> simp

@[simp] theorem fwRun_mem (a op : Nat) (refs : Cmd → State → Option (Nat × Nat)) (body : Cmd → State → State)
    (hb : ∀ c s, (body c s).mem = s.mem) : (fwRun a op refs body s).mem = s.mem := by
  unfold fwRun; exact cmdRun_mem _ _ _ _ _ fun c s => by simp [hb]

@[simp] theorem fwActivateRun_mem (a : Nat) (c : Cmd) : (fwActivateRun a c s).mem = s.mem :=
  (finish_mem ..).trans ((measureCmd_mem ..).trans writeBootControl_mem)

@[simp] theorem lockRun_mem (a : Nat) (c : Cmd) : (lockRun a c s).mem = s.mem := by
  unfold lockRun
  dsimp only
  (repeat' split) <;> simp

@[simp] theorem thermalRun_mem (a : Nat) (c : Cmd) : (thermalRun a c s).mem = s.mem :=
  (finish_mem ..).trans (forEach_mem (fun _ k => settleWarm_mem k) _)

/-! ### HostMem -/

@[simp] theorem failCmd_mem (a code addr done : Nat) : (failCmd a code addr done s).mem = s.mem := by simp [failCmd]
@[simp] theorem authCmd_mem (a done : Nat) : (authCmd a done s).mem = s.mem := finish_mem ..

@[simp] theorem movedTo_mem (a : Nat) (c : Cmd) (n : Nat) (result : List Byte) (fin : Cmd → State → State)
    (hf : ∀ c s, (fin c s).mem = s.mem) : (movedTo a c n result fin s).mem = s.mem := by
  unfold movedTo; dsimp only; split <;> simp [hf]

@[simp] theorem jobStep_mem (a : Nat) (c : Cmd) (fin : State → State) (r : State × OutJob)
    (hf : ∀ s, (fin s).mem = s.mem) : (jobStep a c fin r).mem = r.1.mem := by
  unfold jobStep; (repeat' split) <;> simp [hf]

@[simp] theorem writeEnd_mem (a : Nat) (c : Cmd) : (writeEnd a c s).mem = s.mem := by simp [writeEnd]

@[simp] theorem xloadEnd_mem (a : Nat) (c : Cmd) : (xloadEnd a c s).mem = s.mem :=
  movedTo_mem _ _ _ _ _ fun c s => by split <;> simp

@[simp] theorem fwChunk_mem (a : Nat) (c : Cmd) (data : List Byte) : (fwChunk a c data s).mem = s.mem := by simp [fwChunk]

@[simp] theorem chunkIn_mem (a : Nat) (ss : Session) (c : Cmd) (addr sp : Nat) (data tag : List Byte) (go : List Byte → State → State)
    (hg : ∀ bs s, (go bs s).mem = s.mem) : (chunkIn a ss c addr sp data tag go s).mem = s.mem := by
  unfold chunkIn; dsimp only; split <;> simp [hg]

@[simp] theorem bcastReply_mem (a : Nat) (b : BcastJob) : (bcastReply a b s).mem = s.mem := by
  unfold bcastReply
  split <;> simp

/-! ### LinkChains -/

@[simp] theorem chainSignal_mem (k q : Nat) (d : ChainDesc) : (chainSignal k q d s).1.mem = s.mem := by simp [chainSignal]

/-! ### FabricCmds -/

@[simp] theorem checkPkt_mem (c : Nat) (p : Pkt) (red : Option Nat) : (checkPkt c p red s).mem = s.mem := by
  unfold checkPkt
  dsimp only
  (repeat' split) <;> simp

@[simp] theorem commitPkt_mem (c pid : Nat) : (commitPkt c pid s).mem = s.mem := by
  unfold commitPkt
  dsimp only
  (repeat' split) <;> simp

@[simp] theorem remoteRead_mem (c : Nat) (p : Pkt) : (remoteRead c p s).mem = s.mem := by
  unfold remoteRead
  dsimp only
  (repeat' split) <;> simp

@[simp] theorem readResponse_mem (pid : Nat) : (readResponse pid s).mem = s.mem := by
  unfold readResponse
  split <;> simp

@[simp] theorem countComb_mem (sw : SwitchName) (full : Bool) : (countComb sw full s).mem = s.mem := by
  unfold countComb
  split <;> rfl

@[simp] theorem combineAt_mem (sw : SwitchName) (p q : Pkt) : (combineAt sw p q s).mem = s.mem := by simp [combineAt]

@[simp] theorem combine_mem (sw : SwitchName) (a b : Nat) : (combine sw a b s).mem = s.mem := by
  unfold combine
  split <;> simp

@[simp] theorem copyAnswer_mem (p : Pkt) (sw : SwitchName) (src : Endpoint) (req : Nat) : (copyAnswer p sw src req s).mem = s.mem := rfl
@[simp] theorem copyBack_mem (p : Pkt) (e : Combined) : (copyBack p e s).mem = s.mem := rfl

@[simp] theorem repairHop_mem (h : Hop) : (repairHop h s).mem = s.mem := by
  unfold repairHop
  split <;> simp

@[simp] theorem failHere_mem (p : Pkt) (st : FabStatus) (errAddr : Nat) : (failHere p st errAddr s).mem = s.mem := by simp [failHere]

@[simp] theorem hopReceive_mem (pid : Nat) (ok : Bool) : (hopReceive pid ok s).mem = s.mem := by
  unfold hopReceive
  dsimp only
  (repeat' split) <;> simp

@[simp] theorem outsideHop_mem (h : Hop) (ok : Bool) : (outsideHop h ok s).mem = s.mem := by simp [outsideHop]

/-! ### Streams -/

@[simp] theorem issueTo_mem (dc n : Nat) (e : QEnt) : (issueTo dc n e s).mem = s.mem := forEach_mem (fun _ _ => updCore_mem ..) _
@[simp] theorem seqTo_mem (dc n pc : Nat) : (seqTo dc n pc s).mem = s.mem := rfl

@[simp] theorem seqIssueEff_mem (dc n : Nat) : (seqIssueEff dc n s).mem = s.mem := by
  unfold seqIssueEff
  extract_lets q w o next e k s1
  have issued : s1.mem = s.mem := issueTo_mem ..
  clear_value q w o next e k s1
  cases loops : q.loops <;>
    simp only [apply_ite State.mem, updSeq_mem, seqFault_mem, checkSeqEnd_mem, seqTo_mem, issued, ite_self]

@[simp] theorem settleTrap_mem (c : Nat) : (settleTrap c s).mem = s.mem := by
  unfold settleTrap
  dsimp only
  split <;> simp

@[simp] theorem trpEff_mem (c : Nat) : (trpEff c s).mem = s.mem := by simp [trpEff]

@[simp] theorem completeOp_mem (c id : Nat) : (completeOp c id s).mem = s.mem := by
  unfold completeOp
  split <;> simp

@[simp] theorem coreEndEff_mem (c : Nat) : (coreEndEff c s).mem = s.mem := by simp [coreEndEff]

/-! ### Walks -/

@[simp] theorem opWalked_mem (c id va : Nat) (e : XlEnd) : (opWalked c id va e s).mem = s.mem := by
  unfold opWalked
  split
  · rfl
  · split
    · exact opFault_mem ..
    · exact opFault_mem ..
    · exact (resolveOp_mem ..).trans (takePage_mem ..)

@[simp] theorem invComplete_mem (u : UnitName) : (invComplete u s).mem = s.mem := by
  unfold invComplete
  split <;> simp

@[simp] theorem rputAnswered_mem (k req : Nat) (st : FabStatus) : (rputAnswered k req st s).mem = s.mem := by
  unfold rputAnswered
  dsimp only
  split <;> simp

@[simp] theorem keepAck_mem (p : Pkt) : (keepAck p s).mem = s.mem := by
  unfold keepAck
  split <;> rfl

@[simp] theorem answerArrive_mem (pid : Nat) : (answerArrive pid s).mem = s.mem := by
  unfold answerArrive
  (repeat' split) <;> simp

@[simp] theorem dieRefCool_mem (k d : Nat) : (dieRefCool k d s).mem = s.mem := by
  unfold dieRefCool
  split <;> rfl

/-! ### LinkRx -/

@[simp] theorem stepTime_mem (o : Int) : (stepTime o s).mem = s.mem := by
  unfold stepTime
  exact (warn_mem ..).trans (forEach_mem (fun _ _ => updPort_mem ..) _)

@[simp] theorem steer_mem : (steer s).mem = s.mem := by simp [steer]

@[simp] theorem tick_mem : (tick s).mem = s.mem := by
  unfold tick
  split <;> rfl

@[simp] theorem settleCommit_mem : (settleCommit s).mem = s.mem := by simp [settleCommit]
@[simp] theorem answerBack_mem (k sent : Nat) : (answerBack k sent s).mem = s.mem := by simp [answerBack]
@[simp] theorem notePut_mem (k : Nat) (h : MsgHdr) (st : Nat) : (notePut k h st s).mem = s.mem := by simp [notePut]
@[simp] theorem putDone_mem (k : Nat) (h : MsgHdr) (st : Nat) : (putDone k h st s).mem = s.mem := notePut_mem ..

@[simp] theorem rputPackets_mem (k : Nat) (h : MsgHdr) (data : List Byte) : ((rputPackets k h data s).1).mem = s.mem := by
  unfold rputPackets
  refine foldl_fst_mem (fun r x => ?_) _ _
  exact sendPkt_mem ..

@[simp] theorem timesyncIn_mem (k now : Nat) (data : List Byte) : (timesyncIn k now data s).mem = s.mem := by
  unfold timesyncIn
  exact steer_mem.trans (updPort_mem ..)

@[simp] theorem timesyncOut_mem (k : Nat) : (timesyncOut k s).mem = s.mem := by simp [timesyncOut]

/-! ### LinkTrain -/

@[simp] theorem trainStart_mem (k : Nat) : (trainStart k s).mem = s.mem := by simp [trainStart]
@[simp] theorem sendControl_mem (k sub : Nat) (data : List Byte) : (sendControl k sub data s).mem = s.mem := rfl

@[simp] theorem alignDone_mem (k : Nat) (marks : List (Nat × Nat)) : (alignDone k marks s).mem = s.mem := by
  unfold alignDone
  split <;> rfl

@[simp] theorem laneWindow_mem (k : Nat) (corr uncorr : List (Nat × Nat)) : (laneWindow k corr uncorr s).mem = s.mem := by
  unfold laneWindow
  split <;> rfl

@[simp] theorem retrainAsked_mem (k lane mark : Nat) : (retrainAsked k lane mark s).mem = s.mem := by simp [retrainAsked]
@[simp] theorem commitRun_mem (a : Nat) (c : Cmd) : (commitRun a c s).mem = s.mem := by simp [commitRun]

/-! ### Salvage -/

@[simp] theorem abortWaiting_mem (q : Nat) : (abortWaiting q s).mem = s.mem := by
  unfold abortWaiting
  refine forEach_mem (fun s a => ?_) _
  (repeat' split) <;> simp

@[simp] theorem cluDown_mem (dc : Nat) : (cluDown dc s).mem = s.mem := by simp [cluDown]

/-! ### PowerCmds -/

@[simp] theorem avsWrite_mem (bus sel : Nat) (mvs : List Nat) : (avsWrite bus sel mvs s).mem = s.mem := rfl
@[simp] theorem pointTo_mem (i k : Nat) : (pointTo i k s).mem = s.mem := by simp [pointTo]

@[simp] theorem voltSettled_mem (i : Nat) (failed : Option Nat) : (voltSettled i failed s).mem = s.mem := by
  unfold voltSettled
  dsimp only
  split <;> simp

@[simp] theorem withholdPermits_mem : (withholdPermits s).mem = s.mem := by simp [withholdPermits]
@[simp] theorem stackTick_mem (k : Nat) : (stackTick k s).mem = s.mem := by simp [stackTick]
@[simp] theorem addEnergy_mem (unclassed : Nat) : (addEnergy unclassed s).mem = s.mem := forEach_mem (fun _ k => stackTick_mem k) _
@[simp] theorem capUnmet_mem (unclassed : Nat) : (capUnmet unclassed s).mem = s.mem := by simp [capUnmet]
@[simp] theorem holdTick_mem : (holdTick s).mem = s.mem := forEach_mem (fun _ _ => updRgn_mem ..) _
@[simp] theorem estimate_mem (unclassed : Nat) : (estimate unclassed s).mem = s.mem := by simp [estimate]
@[simp] theorem grantAll_mem (x : CapSample) : (grantAll x s).mem = s.mem := rfl
@[simp] theorem clearCounts_mem : (clearCounts s).mem = s.mem := forEach_mem (fun _ _ => updPort_mem ..) _
@[simp] theorem capTick_mem (x : CapSample) : (capTick x s).mem = s.mem := by simp [capTick]
@[simp] theorem measClass_mem (i : Nat) (xs : List RailReading) : (measClass i xs s).mem = s.mem := by simp [measClass]
@[simp] theorem keepReadings_mem (xs : List RailReading) : (keepReadings xs s).mem = s.mem := rfl

@[simp] theorem measWindow_mem (rails : List RailReading) : (measWindow rails s).mem = s.mem :=
  (measClass_mem ..).trans ((measClass_mem ..).trans ((measClass_mem ..).trans (keepReadings_mem ..)))

@[simp] theorem droopTo_mem (dc n : Nat) : (droopTo dc n s).mem = s.mem := rfl
@[simp] theorem droopDetect_mem (dc permille : Nat) : (droopDetect dc permille s).mem = s.mem := by simp [droopDetect]
@[simp] theorem droopRecover_mem (dc : Nat) : (droopRecover dc s).mem = s.mem := by simp [droopRecover]
@[simp] theorem updPwr_mem (dc : Nat) (f : CluPwr → CluPwr) : (updPwr s dc f).mem = s.mem := rfl
@[simp] theorem closeStage_mem (dc : Nat) (f : CluPwr → CluPwr) : (closeStage dc f s).mem = s.mem := by simp [closeStage]

@[simp] theorem clockStart_mem (dc : Nat) : (clockStart dc s).mem = s.mem := by
  unfold clockStart
  dsimp only
  split <;> simp

@[simp] theorem turnOnStage_mem (dc : Nat) : (turnOnStage dc s).mem = s.mem := by simp [turnOnStage]
@[simp] theorem turnOffStage_mem (dc : Nat) : (turnOffStage dc s).mem = s.mem := by simp [turnOffStage]
@[simp] theorem slackLow_mem (i : Nat) : (slackLow i s).mem = s.mem := by simp [slackLow]
@[simp] theorem railOff_mem (rail : Rail) : (railOff rail s).mem = s.mem := warnSevere_mem ..

@[simp] theorem moveLog_mem : (moveLog s).mem = s.mem := by
  unfold moveLog
  split <;> simp

@[simp] theorem setVcore_mem (f : Nat → Nat) : (setVcore f s).mem = s.mem := forEach_mem (fun _ _ => updRgn_mem ..) _
@[simp] theorem railsUp_mem : (railsUp s).mem = s.mem := setVcore_mem _
@[simp] theorem railsDown_mem : (railsDown s).mem = s.mem := setVcore_mem _
@[simp] theorem bootFail_mem (code : Nat) : (bootFail code s).mem = s.mem := (warnSevere_mem ..).trans railsDown_mem

/-! ### ThermalCmds -/

@[simp] theorem abortCommit_mem : (abortCommit s).mem = s.mem := by simp [abortCommit]
@[simp] theorem updLayer_mem (k i j : Nat) (f : Sensor → Sensor) : (updLayer s k i j f).mem = s.mem := rfl
@[simp] theorem distrust_mem (k i j : Nat) : (distrust k i j s).mem = s.mem := by simp [distrust]

@[simp] theorem readLayer_mem (k : Nat) (xs : List SensorSample) (i j : Nat) : (readLayer k xs i j s).mem = s.mem := by
  unfold readLayer
  split <;> simp

@[simp] theorem refreshHeat_mem (k : Nat) : (refreshHeat k s).mem = s.mem := by simp [refreshHeat]

@[simp] theorem settleCool_mem : (settleCool s).mem = s.mem := by
  have marked : ∀ u : State, (forEach (List.range 6) (fun s k => updStk s k fun x => { x with winBad := true }) u).mem = u.mem :=
    fun u => forEach_mem (fun _ _ => updStk_mem ..) _
  unfold settleCool
  dsimp only
  (repeat' split) <;> simp [marked]

@[simp] theorem ageCool_mem : (ageCool s).mem = s.mem := settleCool_mem ..
@[simp] theorem clearMs_mem (k i : Nat) : (clearMs k i s).mem = s.mem := rfl
@[simp] theorem checked_mem (k i j : Nat) (pass : Bool) : (checked k i j pass s).mem = s.mem := by simp [checked]

@[simp] theorem checkLayer_mem (k i : Nat) (heat : List Nat) (j : Nat) (above : Option Int) : (checkLayer k i heat j above s).1.mem = s.mem := by
  unfold checkLayer
  split <;> simp

@[simp] theorem checkLayers_mem (k i : Nat) (heat js : List Nat) (above : Option Int) : (checkLayers k i heat js above s).mem = s.mem := by
  induction js generalizing above s with
  | nil => rfl
  | cons j js ih => simp [checkLayers, ih]

@[simp] theorem throttleSite_mem (k i : Nat) : (throttleSite k i s).mem = s.mem := by simp [throttleSite]
@[simp] theorem throttleDies_mem (k : Nat) (tick : Bool) : (throttleDies k tick s).mem = s.mem := by simp [throttleDies]
@[simp] theorem winCheck_mem (k i : Nat) : (winCheck k i s).mem = s.mem := rfl
@[simp] theorem judgeTheta_mem (k theta : Nat) : (judgeTheta k theta s).mem = s.mem := by simp [judgeTheta]
@[simp] theorem thetaWindow_mem (k : Nat) : (thetaWindow k s).mem = s.mem := by simp [thetaWindow]
@[simp] theorem coolWrite_mem (f : Side → Side) : (coolWrite f s).mem = s.mem := by simp [coolWrite]

/-! ### Boot -/

theorem packageReset_mem : (packageReset s).mem = {} := rfl
@[simp] theorem railsUpTo_mem (rail : Rail) : (railsUpTo rail s).mem = s.mem := by simp [railsUpTo]
@[simp] theorem bootRailFault_mem (n : Nat) (rail : Rail) : (bootRailFault n rail s).mem = s.mem := by simp [bootRailFault]
@[simp] theorem runImage_mem (n : Nat) : (runImage n s).mem = s.mem := rfl
@[simp] theorem bootStart_mem (x : BootSample) : (bootStart x s).mem = s.mem := readWear_mem ..
@[simp] theorem bootSlots_mem : (bootSlots s).1.mem = s.mem := by simp [bootSlots]

@[simp] theorem loadHelper_mem (ready : Bool) (kind : Nat) : (loadHelper ready s kind).mem = s.mem := by
  unfold loadHelper
  split <;> rfl

@[simp] theorem bootHelpers_mem (fails : Option Nat) : (bootHelpers fails s).mem = s.mem := by
  unfold bootHelpers
  dsimp only
  (repeat' split) <;> simp

@[simp] theorem writeSettings_mem (t : Settings) : (writeSettings t s).mem = s.mem := by
  unfold writeSettings
  exact (updDev_mem ..).trans (areaWrite_mem ..)

@[simp] theorem readSettings_mem : (readSettings s).mem = s.mem := by
  unfold readSettings
  split <;> simp

@[simp] theorem setTrims_mem (x : BootSample) (fast : Bool) : (setTrims x fast s).mem = s.mem := by simp [setTrims]
@[simp] theorem logToRing_mem : (logToRing s).mem = s.mem := by simp [logToRing]
@[simp] theorem bootRails_mem (x : BootSample) (cold full : Bool) : (bootRails x cold full s).mem = s.mem := by simp [bootRails]
@[simp] theorem markStacks_mem (t : Settings) : (markStacks t s).mem = s.mem := forEach_mem (fun _ _ => updStk_mem ..) _
@[simp] theorem bootBaseline_mem (x : BootSample) (cold : Bool) (k : Nat) : (bootBaseline x cold k s).mem = s.mem := by simp [bootBaseline]
@[simp] theorem bootTest_mem (x : BootSample) (cold : Bool) : (bootTest x cold s).1.mem = s.mem := by simp [bootTest]

@[simp] theorem applyMap_mem (t : Settings) (fast : Bool) : (applyMap t fast s).mem = s.mem := by
  unfold applyMap
  refine (updDev_mem ..).trans ?_
  exact (forEach_mem (fun _ _ => updStk_mem ..) _).trans (markStacks_mem t)

@[simp] theorem bootGood_mem : (bootGood s).mem = s.mem := by
  unfold bootGood
  extract_lets s1
  have written : s1.mem = s.mem := writeBootControl_mem.trans (updDev_mem ..)
  split
  · exact (warn_mem ..).trans ((updDev_mem ..).trans written)
  · exact written

theorem stepFails_mem {x : BootSample} {n : Nat} {r : State × Nat} (h : stepFails x n s = some r) : r.1.mem = s.mem := by
  unfold stepFails at h
  split at h
  · cases h
  · (repeat' split at h) <;> simp at h
    · obtain ⟨rl, -, rfl⟩ := h
      exact bootRailFault_mem ..
    · obtain rfl := h
      exact bootHelpers_mem ..
    · obtain rfl := h
      rfl

@[simp] theorem enumerated_mem (x : BootSample) : (enumerated x s).mem = s.mem := rfl
theorem vauxGone_mem : (vauxGone s).mem = {} := rfl
@[simp] theorem copyTable_mem (stk : Nat) (es : List MemLog) : (copyTable stk es s).mem = s.mem := by simp [copyTable]

@[simp] theorem persistAppend_mem : (persistAppend s).mem = s.mem := by
  unfold persistAppend
  dsimp only
  (repeat' split) <;> simp

/-! ### Broadcast -/

@[simp] theorem bcastFault_mem (cs : List (Nat × Nat)) (code addr : Nat) : (bcastFault cs code addr s).mem = s.mem := by
  unfold bcastFault
  refine forEach_mem (fun s c => ?_) _
  split <;> simp

@[simp] theorem resumeStream_mem (dc n : Nat) : (resumeStream dc n s).mem = s.mem := forEach_mem (fun _ _ => updCore_mem ..) _

@[simp] theorem fixRotation_mem (q i n : Nat) (oneSec : Bool) : (fixRotation q i n oneSec s).1.mem = s.mem := by
  unfold fixRotation
  dsimp only
  split <;> simp

@[simp] theorem rotate_mem (dc n units : Nat) (oneSec : Bool) : (rotate dc n units oneSec s).mem = s.mem := by
  unfold rotate
  split
  · rfl
  · exact (resumeStream_mem ..).trans ((forEach_mem (fun _ _ => updCore_mem ..) _).trans (fixRotation_mem ..))

@[simp] theorem trapReached_mem (dc n : Nat) (oneSec : Bool) : (trapReached dc n oneSec s).mem = s.mem := by
  unfold trapReached
  dsimp only
  split <;> simp

/-! ### HostRun -/

@[simp] theorem invalRun_mem (a : Nat) (c : Cmd) : (invalRun a c s).mem = s.mem := by
  unfold invalRun
  split <;> simp

@[simp] theorem ctrlReach_mem (dc : Nat) : (ctrlReach dc s).1.mem = s.mem := by simp [ctrlReach]

@[simp] theorem atCtrl_mem (a dc addr : Nat) (go : State → State) (hg : ∀ s, (go s).mem = s.mem) :
    (atCtrl a dc addr go s).mem = s.mem := by
  unfold atCtrl; dsimp only; split <;> simp [hg]

@[simp] theorem regReadRun_mem (a : Nat) (c : Cmd) : (regReadRun a c s).mem = s.mem := by
  unfold regReadRun
  split <;> simp

@[simp] theorem bindCores_mem (n : Nat) (cs : List Nat) : (bindCores n cs s).1.mem = s.mem :=
  foldl_fst_mem (fun r c => by split <;> rfl) _ _

@[simp] theorem measureStream_mem (q dc n : Nat) (bs : List Byte) : (measureStream q dc n bs s).mem = s.mem := by simp [measureStream]
@[simp] theorem seqStart_mem (dc n start limit : Nat) : (seqStart dc n start limit s).mem = s.mem := forEach_mem (fun _ _ => updCore_mem ..) _

@[simp] theorem seqEndTrapped_mem (dc n : Nat) : (seqEndTrapped dc n s).mem = s.mem := by
  unfold seqEndTrapped
  exact (checkSeqEnd_mem ..).trans (forEach_mem (fun _ _ => updCore_mem ..) _)

@[simp] theorem streamCtrlRun_mem (a : Nat) (c : Cmd) : (streamCtrlRun a c s).mem = s.mem := by
  unfold streamCtrlRun
  dsimp only
  split <;> simp

/-! ### MemCmds -/

@[simp] theorem scrubTo_mem (stack die w : Nat) : (scrubTo stack die w s).mem = s.mem := by
  unfold scrubTo
  split <;> rfl

@[simp] theorem scrubPassed_mem (stack die : Nat) : (scrubPassed stack die s).mem = s.mem := by
  unfold scrubPassed
  split <;> rfl

@[simp] theorem refresh_mem (stack mdie column bank : Nat) : (refresh stack mdie column bank s).mem = s.mem := by
  unfold refresh
  dsimp only
  split <;> simp

/-! ### PartCmds -/

@[simp] theorem createRun_mem (a : Nat) (c : Cmd) : (createRun a c s).mem = s.mem := by
  unfold createRun
  dsimp only
  split
  · exact finish_mem ..
  · split
    · exact finish_mem ..
    · refine (finish_mem ..).trans ((setPart_mem ..).trans ((forEach_mem (fun _ _ => cluCycle_mem ..) _).trans
        ((extendPart_mem ..).trans ?_)))
      exact (forEach_mem (fun _ _ => updAp_mem ..) _).trans (forEach_mem (fun _ _ => updStk_mem ..) _)

@[simp] theorem configClu_mem (root spm kvw tables : Nat) (dc : Nat) : (configClu root spm kvw tables s dc).mem = s.mem := by simp [configClu]

@[simp] theorem configClus_mem (root spm kvw tables : Nat) (dcs : List Nat) : (configClus root spm kvw tables dcs s).1.mem = s.mem := by
  induction dcs generalizing s with
  | nil => rfl
  | cons dc dcs ih => unfold configClus; dsimp only; split <;> simp [ih]

@[simp] theorem configRun_mem (a : Nat) (c : Cmd) : (configRun a c s).mem = s.mem := by
  unfold configRun
  dsimp only
  (repeat' split) <;> simp

@[simp] theorem drainRun_mem (a : Nat) (c : Cmd) : (drainRun a c s).mem = s.mem := by
  unfold drainRun
  split <;> simp

@[simp] theorem drained_mem (q cause streams chains seqs : Nat) : (drained q cause streams chains seqs s).mem = s.mem := by
  unfold drained
  dsimp only
  split <;> simp

@[simp] theorem drainComplete_mem (q : Nat) : (drainComplete q s).mem = s.mem := by simp [drainComplete]

/-! ### Sync -/

@[simp] theorem wclDone_mem (c : Nat) : (wclDone c s).mem = s.mem := by
  unfold wclDone
  dsimp only
  split <;> simp

@[simp] theorem barJoin_mem (c scope mask : Nat) : (barJoin c scope mask s).mem = s.mem := by
  unfold barJoin
  split <;> rfl

@[simp] theorem barArrive_mem (c : Nat) : (barArrive c s).mem = s.mem := by
  unfold barArrive
  dsimp only
  split <;> simp

@[simp] theorem releaseOne_mem (b : Barrier) (c : Nat) : (releaseOne b s c).mem = s.mem := by simp [releaseOne]

@[simp] theorem barRelease_mem (bid : Nat) : (barRelease bid s).mem = s.mem := by
  unfold barRelease
  split <;> simp

@[simp] theorem sigSend_mem (c i : Nat) : (sigSend c i s).mem = s.mem := by
  unfold sigSend
  dsimp only
  split <;> simp

@[simp] theorem wflTake_mem (c : Nat) : (wflTake c s).mem = s.mem := by
  unfold wflTake
  dsimp only
  split <;> simp

@[simp] theorem wflExpire_mem (c : Nat) : (wflExpire c s).mem = s.mem := by
  unfold wflExpire
  dsimp only
  split <;> simp

/-! ### Telemetry -/

@[simp] theorem freeValues_mem (n : Nat) : (freeValues n s).1.mem = s.mem := by
  induction n generalizing s with
  | zero => rfl
  | succ n ih => exact ih

@[simp] theorem railValues_mem (es : List (Nat × Nat)) : (railValues es s).1.mem = s.mem := by
  induction es generalizing s with
  | nil => rfl
  | cons e es ih => unfold railValues; split <;> simp [ih]

@[simp] theorem deviceValues_mem : (deviceValues s).1.mem = s.mem := railValues_mem ..

@[simp] theorem telemetryBlock_mem (v : Nat) : (telemetryBlock v s).1.mem = s.mem := by
  unfold telemetryBlock
  split <;> simp

@[simp] theorem telemetryRun_mem (a : Nat) (c : Cmd) : (telemetryRun a c s).mem = s.mem := (sendBlock_mem ..).trans (telemetryBlock_mem ..)

/-! ### UnitCmds -/

@[simp] theorem queueNotify_mem (c : Nat) : (queueNotify c s).mem = s.mem := by simp [queueNotify]

end Sys2Proof.Machine
end

section
/-! PROOFS. The functions that read or write the memory keep it in canonical form, in the order of the model: first the stores and what the memory
code does to a word (`rebase`, `noteUncorrectable`, `putWord`, `clearStack`), then what is made of them. -/

namespace Sys2Proof.Machine
variable {s : State}

@[simp] theorem ite_snd {α β : Type} (p : Prop) [Decidable p] (t u : α × β) : (if p then t else u).2 = if p then t.2 else u.2 := apply_ite ..

@[simp] theorem smapWf_ite {α : Type} [DecidableEq α] (z : α) (p : Prop) [Decidable p] (m n : List (Nat × α)) :
    smapWf z (if p then m else n) = if p then smapWf z m else smapWf z n := apply_ite ..

@[simp] theorem ite_bytes (p : Prop) [Decidable p] (m n : Mem) : (if p then m else n).bytes = if p then m.bytes else n.bytes := apply_ite ..

/-! ### Ops -/

theorem forEach_canon {α : Type} {f : State → α → State} (hf : ∀ s x, Memory.wf s.mem.bytes → Memory.wf (f s x).mem.bytes) (xs : List α)
    (h : Memory.wf s.mem.bytes) :
    Memory.wf (forEach xs f s).mem.bytes := by
  induction xs generalizing s with
  | nil => exact h
  | cons x xs ih => exact ih (hf s x h)

theorem foldl_fst_canon {α β : Type} {f : State × β → α → State × β}
    (hf : ∀ r x, Memory.wf r.1.mem.bytes → Memory.wf (f r x).1.mem.bytes)
    (xs : List α) (r : State × β)
    (h : Memory.wf r.1.mem.bytes) : Memory.wf (xs.foldl f r).1.mem.bytes := by
  induction xs generalizing r with
  | nil => exact h
  | cons x xs ih => exact ih (f r x) (hf r x h)

/-! ### Paths -/

theorem overFabric_canon (kind : PktKind) (src dst : Endpoint) (back : PktKind) (addr n : Nat) {deliver : State → State × FabStatus × Nat}
    (hd : ∀ s, Memory.wf s.mem.bytes → Memory.wf (deliver s).1.mem.bytes) (h : Memory.wf s.mem.bytes) :
    Memory.wf (overFabric kind src dst back addr n deliver s).1.mem.bytes := by
  unfold overFabric
  extract_lets x r y
  have hx : Memory.wf x.1.mem.bytes := by simp [x, h]
  have hr : Memory.wf r.1.mem.bytes := hd _ hx
  have hy : Memory.wf y.1.mem.bytes := by simp [y, hr]
  (repeat' split) <;> assumption

/-! ### HostMem -/

theorem jobStep_canon (a : Nat) (c : Cmd) (fin : State → State) (hf : ∀ s, Memory.wf s.mem.bytes → Memory.wf (fin s).mem.bytes)
    (r : State × OutJob)
    (h : Memory.wf r.1.mem.bytes) :
    Memory.wf (jobStep a c fin r).mem.bytes := by
  unfold jobStep
  dsimp only
  (repeat' split) <;> simp [h, hf]

theorem movedTo_canon (a : Nat) (c : Cmd) (n : Nat) (result : List Byte) (fin : Cmd → State → State)
    (hf : ∀ c s, Memory.wf s.mem.bytes → Memory.wf (fin c s).mem.bytes) (h : Memory.wf s.mem.bytes) :
    Memory.wf (movedTo a c n result fin s).mem.bytes := by
  have h1 := hf c _ (show Memory.wf (updCur a (fun k => { k with moved := c.moved + n }) s).mem.bytes from h)
  unfold movedTo
  dsimp only
  (repeat' split) <;> simp [h, h1]

theorem chunkIn_canon (a : Nat) (ss : Session) (c : Cmd) (addr sp : Nat) (data tag : List Byte) (go : List Byte → State → State)
    (hg : ∀ bs s, Memory.wf s.mem.bytes → Memory.wf (go bs s).mem.bytes) (h : Memory.wf s.mem.bytes) :
    Memory.wf (chunkIn a ss c addr sp data tag go s).mem.bytes := by
  unfold chunkIn
  dsimp only
  split <;> simp [h, hg]

/-! ### HostRec -/

theorem cmdRun_canon (a op : Nat) (refs : Cmd → State → Option (Nat × Nat)) (legal : State → Bool) (body : Cmd → State → State)
    (hb : ∀ c s, Memory.wf s.mem.bytes → Memory.wf (body c s).mem.bytes) (h : Memory.wf s.mem.bytes) :
    Memory.wf (cmdRun a op refs legal body s).mem.bytes := by
  unfold cmdRun
  (repeat' split) <;> simp [h, hb]

/-! ### HostRun -/

theorem atCtrl_canon (a dc addr : Nat) (go : State → State) (hg : ∀ s, Memory.wf s.mem.bytes → Memory.wf (go s).mem.bytes)
    (h : Memory.wf s.mem.bytes) : Memory.wf (atCtrl a dc addr go s).mem.bytes := by
  unfold atCtrl
  dsimp only
  split <;> simp [h, hg]

/-! ### Ops -/

theorem unlessBlocked_canon {t : State} (ht : Memory.wf t.mem.bytes) (h : Memory.wf s.mem.bytes) : Memory.wf (unlessBlocked t s).mem.bytes := by
  unfold unlessBlocked
  split
  · exact h
  · exact ht

@[simp] theorem ofPackage_canon {t : State} (ht : Memory.wf t.mem.bytes) (h : Memory.wf s.mem.bytes) : Memory.wf (ofPackage s t).mem.bytes := by
  unfold ofPackage
  split
  · simp [h]
  · exact ht

theorem xorSymbols_wf (w : Nat) (errs : List (Nat × Nat)) {m : List Host.Cell} (h : Memory.wf m = true) :
    Memory.wf (xorSymbols w errs m) = true := by
  unfold xorSymbols
  induction errs generalizing m with
  | nil => exact h
  | cons e es ih =>
    refine ih ?_
    dsimp only
    split
    · exact memPut_wf (memPut_wf h _ _) _ _
    · exact h

theorem ite_canon {p : Prop} [Decidable p] {t u : State} (ht : Memory.wf t.mem.bytes) (hu : Memory.wf u.mem.bytes) :
    Memory.wf (if p then t else u).mem.bytes := by
  split
  · exact ht
  · exact hu

theorem withPcie_mem (p : Pcie) : ({ s with pcie := p } : State).mem = s.mem := rfl

/-! ### Memory -/

@[simp] theorem rebase_canon (w : Nat) (fix : List (Nat × Nat)) (h : Memory.wf s.mem.bytes) : Memory.wf (rebase w fix s).mem.bytes :=
  xorSymbols_wf w fix (xorSymbols_wf w _ h)

@[simp] theorem noteUncorrectable_canon (w rq : Nat) (h : Memory.wf s.mem.bytes) : Memory.wf (noteUncorrectable w rq s).mem.bytes := by
  have hx := xorSymbols_wf w (smapGet [] s.mem.flips w) h
  unfold noteUncorrectable
  dsimp only
  split <;> simp [hx]

@[simp] theorem readWord_canon (w rq : Nat) (h : Memory.wf s.mem.bytes) : Memory.wf (readWord w rq s).1.mem.bytes := by
  unfold readWord
  (repeat' split) <;> simp [h]

@[simp] theorem readWords_canon (rq : Nat) (ws : List Nat) (h : Memory.wf s.mem.bytes) : Memory.wf (readWords rq ws s).1.mem.bytes := by
  induction ws generalizing s with
  | nil => exact h
  | cons w ws ih =>
    unfold readWords
    dsimp only
    split
    · exact ih (readWord_canon w rq h)
    · exact readWord_canon w rq h

@[simp] theorem memLoad_canon (loc n rq : Nat) (h : Memory.wf s.mem.bytes) : Memory.wf (memLoad loc n rq s).1.mem.bytes := by
  unfold memLoad
  split <;> simp [h]

@[simp] theorem markWritten_bytes (w : Nat) (m : Mem) : (markWritten w m).bytes = m.bytes := by
  unfold markWritten
  dsimp only
  (repeat' split) <;> rfl

@[simp] theorem putWord_canon (loc : Nat) (data : List (Option Byte)) (h : Memory.wf s.mem.bytes) : Memory.wf (putWord loc data s).mem.bytes := by
  simp [putWord, memMask_wf h]

@[simp] theorem storeWord_canon (loc : Nat) (data : List (Option Byte)) (whole : Bool) (h : Memory.wf s.mem.bytes) :
    Memory.wf (storeWord loc data whole s).1.mem.bytes := by
  unfold storeWord
  dsimp only
  (repeat' split) <;> simp [h]

@[simp] theorem storeCuts_canon (whole : Bool) (cs : List (Nat × List (Option Byte))) (h : Memory.wf s.mem.bytes) :
    Memory.wf (storeCuts whole cs s).1.mem.bytes := by
  induction cs generalizing s with
  | nil => exact h
  | cons c cs ih =>
    unfold storeCuts
    dsimp only
    split
    · exact ih (storeWord_canon _ _ _ (by simp [h]))
    · exact storeWord_canon _ _ _ (by simp [h])

@[simp] theorem memStore_canon (loc : Nat) (data : List (Option Byte)) (whole : Bool) (h : Memory.wf s.mem.bytes) :
    Memory.wf (memStore loc data whole s).1.mem.bytes := by
  unfold memStore
  (repeat' split) <;> simp [h]

@[simp] theorem clearStack_canon (k : Nat) (h : Memory.wf s.mem.bytes) : Memory.wf (clearStack k s).mem.bytes := by
  simp [clearStack, smapWf_filter _ h]

/-! ### Translate -/

@[simp] theorem walkRead_canon (u : UnitName) (pa l : Nat) (h : Memory.wf s.mem.bytes) : Memory.wf (walkRead u pa l s).1.mem.bytes := by
  unfold walkRead
  extract_lets x
  have hx : Memory.wf x.1.mem.bytes := by
    refine overFabric_canon _ _ _ _ _ _ (fun s h => ?_) h
    dsimp only
    split <;> simp [h]
  split <;> exact hx

@[simp] theorem walkFrom_canon (u : UnitName) (part va fuel level table : Nat) (h : Memory.wf s.mem.bytes) :
    Memory.wf (walkFrom u part va fuel level table s).1.mem.bytes := by
  induction fuel generalizing level table s with
  | zero => exact h
  | succ fuel ih =>
    unfold walkFrom
    dsimp only
    (repeat' split) <;> simp [h, ih]

@[simp] theorem walkTables_canon (u : UnitName) (part va : Nat) (h : Memory.wf s.mem.bytes) : Memory.wf (walkTables u part va s).1.mem.bytes := by
  unfold walkTables
  split <;> simp [h]

@[simp] theorem kvWalk_canon (dc part va : Nat) (h : Memory.wf s.mem.bytes) : Memory.wf (kvWalk dc part va s).1.mem.bytes := by
  unfold kvWalk
  extract_lets k list page lo slice t r le first count po r2 pe pa inCol e
  have ht : Memory.wf t.mem.bytes := h
  have hr : Memory.wf r.1.mem.bytes := memLoad_canon _ _ _ ht
  have hr2 : Memory.wf r2.1.mem.bytes := memLoad_canon _ _ _ hr
  clear_value r2 r t
  (repeat' split) <;> assumption

@[simp] theorem xlWalk_canon (u : UnitName) (part va : Nat) (kv : Bool) (h : Memory.wf s.mem.bytes) :
    Memory.wf (xlWalk u part va kv s).1.mem.bytes := by
  unfold xlWalk
  dsimp only
  (repeat' split) <;> simp [h]

@[simp] theorem xlNow_canon (u : UnitName) (part : Option Nat) (va : Nat) (h : Memory.wf s.mem.bytes) :
    Memory.wf (xlNow u part va s).1.mem.bytes := by
  unfold xlNow
  dsimp only
  split <;> simp [h]

@[simp] theorem xlRange_canon (u : UnitName) (part : Option Nat) (wr outside : Bool) (ps : List (Nat × Nat)) (h : Memory.wf s.mem.bytes) :
    Memory.wf (xlRange u part wr outside ps s).1.mem.bytes := by
  induction ps generalizing s with
  | nil => exact h
  | cons p ps ih =>
    unfold xlRange
    dsimp only
    (repeat' split) <;> simp [h, ih]

@[simp] theorem loadPieces_canon (rq : Nat) (ps : List (Nat × Nat)) (h : Memory.wf s.mem.bytes) : Memory.wf (loadPieces rq ps s).1.mem.bytes := by
  induction ps generalizing s with
  | nil => exact h
  | cons p ps ih =>
    unfold loadPieces
    split
    · exact h
    · extract_lets cuts r t
      have hr : Memory.wf r.1.mem.bytes := by
        refine foldl_fst_canon (fun r c hr => ?_) _ (s, none, []) h
        (repeat' split) <;> simp [hr]
      split <;> simp [t, hr, ih]

@[simp] theorem storePieces_canon (whole : Bool) (ps : List (Nat × Nat)) (data : List (Option Byte)) (h : Memory.wf s.mem.bytes) :
    Memory.wf (storePieces whole ps data s).1.mem.bytes := by
  induction ps generalizing s data with
  | nil => exact h
  | cons p ps ih =>
    unfold storePieces
    extract_lets cuts r
    have hr : Memory.wf r.1.mem.bytes := by
      refine foldl_fst_canon (fun r c hr => ?_) _ _ h
      dsimp only
      (repeat' split) <;> simp [hr]
    split <;> simp [hr, ih]

/-! ### FarMem -/

@[simp] theorem writeAtPort_canon (src : Endpoint) (l : Nat) (data : List Byte) (h : Memory.wf s.mem.bytes) :
    Memory.wf (writeAtPort src l data s).1.mem.bytes := by
  unfold writeAtPort
  dsimp only
  split <;> simp [h]

@[simp] theorem memPacket_canon (kind : PktKind) (src : Endpoint) (pa : Nat) (data : List Byte) (h : Memory.wf s.mem.bytes) :
    Memory.wf (memPacket kind src pa data s).1.mem.bytes := by
  unfold memPacket
  split
  · exact h
  · exact overFabric_canon _ _ _ _ _ _ (fun _ h => writeAtPort_canon _ _ _ h) h

@[simp] theorem sendLeft_canon (src : Endpoint) (ps : List (Nat × List Byte)) (j : OutJob) (h : Memory.wf s.mem.bytes) :
    Memory.wf (sendLeft src ps j s).1.mem.bytes := by
  induction ps generalizing s j with
  | nil => exact h
  | cons p ps ih =>
    unfold sendLeft
    dsimp only
    (repeat' split) <;> simp [h, ih]

@[simp] theorem runJob_canon (src : Endpoint) (j : OutJob) (h : Memory.wf s.mem.bytes) : Memory.wf (runJob src j s).1.mem.bytes := by
  unfold runJob
  (repeat' split) <;> simp [h]

@[simp] theorem bcastPacket_canon (kind off : Nat) (ts : List Nat) (data : List Byte) (b : BcastJob) (h : Memory.wf s.mem.bytes) :
    Memory.wf (bcastPacket kind off ts data b s).1.mem.bytes := by
  -- the address stays a name, so that no check evaluates it
  obtain ⟨place, hplace⟩ : ∃ place : State → Nat → Nat, ∀ s t, locPa s (tarnLoc t off) = place s t := ⟨_, fun _ _ => rfl⟩
  unfold bcastPacket
  simp only [hplace]
  refine foldl_fst_canon (fun r x hr => ?_) ts _ ?_
  · (repeat' split) <;> simp [hr]
  · simp [h]

@[simp] theorem bcastSend_canon (kind : Nat) (ts : List Nat) (ps : List (Nat × List Byte)) (b : BcastJob) (h : Memory.wf s.mem.bytes) :
    Memory.wf (bcastSend kind ts ps b s).1.mem.bytes := by
  induction ps generalizing s b with
  | nil => exact h
  | cons p ps ih =>
    unfold bcastSend
    dsimp only
    split <;> simp [h, ih]

@[simp] theorem runBcast_canon (kind : Nat) (ts : List Nat) (b : BcastJob) (h : Memory.wf s.mem.bytes) :
    Memory.wf (runBcast kind ts b s).1.mem.bytes := by
  unfold runBcast
  (repeat' split) <;> simp [h]

@[simp] theorem readAtPort_canon (src : Endpoint) (l n rq : Nat) (h : Memory.wf s.mem.bytes) : Memory.wf (readAtPort src l n rq s).1.mem.bytes := by
  unfold readAtPort
  dsimp only
  split <;> simp [h]

@[simp] theorem farGranules_canon (src : Endpoint) (rq : Nat) (ps : List (Nat × Nat)) (h : Memory.wf s.mem.bytes) :
    Memory.wf (farGranules src rq ps s).1.mem.bytes := by
  induction ps generalizing s with
  | nil => exact h
  | cons p ps ih =>
    unfold farGranules
    split
    · exact h
    next l _ =>
      have hx := overFabric_canon .readReq src (.column (locDc l)) .readResp p.1 p.2 (fun _ h => readAtPort_canon src l p.2 rq h) h
      dsimp only
      split
      · exact ih hx
      · exact hx

@[simp] theorem farLoad_canon (src : Endpoint) (rq : Nat) (ps : List (Nat × Nat)) (h : Memory.wf s.mem.bytes) :
    Memory.wf (farLoad src rq ps s).1.mem.bytes := by simp [farLoad, h]

/-! ### LinkRec -/

@[simp] theorem linkXl_canon (k q : Nat) (wr : Bool) (ps : List (Nat × Nat)) (h : Memory.wf s.mem.bytes) :
    Memory.wf (linkXl k q wr ps s).1.mem.bytes := by
  induction ps generalizing s with
  | nil => exact h
  | cons p ps ih =>
    unfold linkXl
    dsimp only
    (repeat' split) <;> simp [h, ih]

@[simp] theorem chainRecord_canon (k q : Nat) (h : Memory.wf s.mem.bytes) : Memory.wf (chainRecord k q s).mem.bytes := by
  unfold chainRecord
  dsimp only
  split <;> simp [h]

/-! ### SpringOps -/

@[simp] theorem sprPages_canon (dc : Nat) (phys : Bool) (r : OpRule) (ps : List (Nat × Nat)) (h : Memory.wf s.mem.bytes) :
    Memory.wf (sprPages dc phys r ps s).1.mem.bytes := by
  induction ps generalizing s with
  | nil => exact h
  | cons p ps ih =>
    unfold sprPages
    extract_lets x one y
    have hone : Memory.wf one.1.mem.bytes := by
      unfold one x
      (repeat' split) <;> simp [h]
    have hy : Memory.wf y.1.mem.bytes := ih hone
    clear_value y one
    (repeat' split) <;> assumption

@[simp] theorem sprRange_canon (dc : Nat) (phys : Bool) (r : OpRule) (va n : Nat) (h : Memory.wf s.mem.bytes) :
    Memory.wf (sprRange dc phys r va n s).1.mem.bytes := by
  unfold sprRange
  split <;> simp [h]

@[simp] theorem sprRead_canon (dc : Nat) (phys : Bool) (r : OpRule) (ps : List (Nat × Nat)) (h : Memory.wf s.mem.bytes) :
    Memory.wf (sprRead dc phys r ps s).1.mem.bytes := by
  induction ps generalizing s with
  | nil => exact h
  | cons p ps ih =>
    have hx : Memory.wf (sprRange dc phys r p.1 p.2 s).1.mem.bytes := sprRange_canon _ _ _ _ _ h
    unfold sprRead
    dsimp only
    (repeat' split) <;> simp [hx, ih]

@[simp] theorem sprCommit_canon (ws : List SprWr) (h : Memory.wf s.mem.bytes) : Memory.wf (sprCommit ws s).1.mem.bytes := by
  unfold sprCommit
  split
  · exact readWord_canon _ _ h
  · exact forEach_canon (fun _ _ h => storePieces_canon _ _ _ h) _ h

@[simp] theorem kvEntry_canon (dc : Nat) (d : List Byte) (page : Nat) (h : Memory.wf s.mem.bytes) : Memory.wf (kvEntry dc d page s).1.mem.bytes := by
  unfold kvEntry
  dsimp only
  (repeat' split) <;> simp [h]

@[simp] theorem kvPage_canon (dc : Nat) (d : List Byte) (page : Nat) (h : Memory.wf s.mem.bytes) : Memory.wf (kvPage dc d page s).1.mem.bytes := by
  unfold kvPage
  dsimp only
  (repeat' split) <;> simp [h]

@[simp] theorem kvStep_canon (dc unit step : Nat) (q : SprSeq) (h : Memory.wf s.mem.bytes) :
    Memory.wf (kvStep dc unit step q s).1.mem.bytes := by
  have hp := kvPage_canon dc q.desc (step / 8) h
  unfold kvStep
  dsimp only
  (repeat' split) <;> simp [hp]

@[simp] theorem readSlot_canon (dc : Nat) (q : SprSeq) (j i0 i1 : Nat) (r : OpRule) (h : Memory.wf s.mem.bytes) :
    Memory.wf (readSlot dc q j i0 i1 r s).1.mem.bytes := by simp [readSlot, h]

@[simp] theorem outSlot_canon (dc : Nat) (q : SprSeq) (j i0 : Nat) (vs : List FVal) (r : OpRule) (h : Memory.wf s.mem.bytes) :
    Memory.wf (outSlot dc q j i0 vs r s).1.mem.bytes := by
  unfold outSlot
  dsimp only
  split <;> simp [h]

@[simp] theorem readSlots_canon (dc : Nat) (q : SprSeq) (xs : List (Nat × Nat × Nat × OpRule)) (h : Memory.wf s.mem.bytes) :
    Memory.wf (readSlots dc q xs s).1.mem.bytes := by
  induction xs generalizing s with
  | nil => exact h
  | cons x xs ih =>
    unfold readSlots
    dsimp only
    split <;> simp [h, ih]

@[simp] theorem outSlots_canon (dc : Nat) (q : SprSeq) (xs : List (Nat × Nat × List FVal × OpRule)) (h : Memory.wf s.mem.bytes) :
    Memory.wf (outSlots dc q xs s).1.mem.bytes := by
  induction xs generalizing s with
  | nil => exact h
  | cons x xs ih =>
    unfold outSlots
    dsimp only
    split <;> simp [h, ih]

@[simp] theorem regionOf_canon (dc : Nat) (q : SprSeq) (h : Memory.wf s.mem.bytes) : Memory.wf (regionOf dc q s).1.mem.bytes := by
  unfold regionOf
  dsimp only
  (repeat' split) <;> simp [h]

@[simp] theorem stripeWork_canon (dc : Nat) (q : SprSeq) (t : Stripe) (r : OpRule) (h : Memory.wf s.mem.bytes) :
    Memory.wf (stripeWork dc q t r s).1.mem.bytes := by
  unfold stripeWork
  dsimp only
  (repeat' split) <;> simp [h]

@[simp] theorem elemStep_canon (dc step : Nat) (q : SprSeq) (h : Memory.wf s.mem.bytes) :
    Memory.wf (elemStep dc step q s).1.mem.bytes := by
  unfold elemStep
  extract_lets rg q1 rule w far o c
  have hrg : Memory.wf rg.1.mem.bytes := regionOf_canon _ _ h
  have hw : Memory.wf w.1.mem.bytes := stripeWork_canon _ _ _ _ hrg
  have ho : Memory.wf o.1.mem.bytes := outSlots_canon _ _ _ hw
  have hc : Memory.wf c.1.mem.bytes := sprCommit_canon _ ho
  clear_value c o w rg
  (repeat' split) <;> assumption

/-! ### SpringCmds -/

@[simp] theorem sprReport_canon (dc : Nat) (q : SprSeq) (rec : List Byte) (h : Memory.wf s.mem.bytes) :
    Memory.wf (sprReport dc q rec s).mem.bytes := by
  unfold sprReport
  (repeat' split) <;> simp [h]

@[simp] theorem sprEnd_canon (dc : Nat) (q : SprSeq) (status : Nat) (h : Memory.wf s.mem.bytes) :
    Memory.wf (sprEnd dc q status s).mem.bytes := by simp [sprEnd, h]

@[simp] theorem sprAccept_canon (dc i : Nat) (h : Memory.wf s.mem.bytes) : Memory.wf (sprAccept dc i s).mem.bytes := by
  unfold sprAccept
  dsimp only
  (repeat' split) <;> simp [h]

@[simp] theorem sprGrant_canon (dc mdie : Nat) (h : Memory.wf s.mem.bytes) : Memory.wf (sprGrant dc mdie s).mem.bytes := by
  unfold sprGrant
  dsimp only
  (repeat' split) <;> simp [h]

@[simp] theorem stepWork_canon (dc : Nat) (t : SprStep) (q : SprSeq) (h : Memory.wf s.mem.bytes) : Memory.wf (stepWork dc t q s).1.mem.bytes := by
  unfold stepWork
  dsimp only
  (repeat' split) <;> simp [h]

@[simp] theorem seqFinish_canon (dc : Nat) (q : SprSeq) (h : Memory.wf s.mem.bytes) : Memory.wf (seqFinish dc q s).mem.bytes := by
  unfold seqFinish
  (repeat' split) <;> simp [h]

@[simp] theorem sprEnding_canon (dc id status : Nat) (h : Memory.wf s.mem.bytes) : Memory.wf (sprEnding dc id status s).mem.bytes := by
  unfold sprEnding
  dsimp only
  (repeat' split) <;> simp [h]

@[simp] theorem sprStepEnd_canon (dc mdie : Nat) (h : Memory.wf s.mem.bytes) : Memory.wf (sprStepEnd dc mdie s).mem.bytes := by
  unfold sprStepEnd
  dsimp only
  (repeat' split) <;> simp [h]

@[simp] theorem sprSubmit_canon (dc pa : Nat) (h : Memory.wf s.mem.bytes) : Memory.wf (sprSubmit dc pa s).mem.bytes := by
  unfold sprSubmit
  dsimp only
  (repeat' split) <;> simp [h]

@[simp] theorem sprAbort_canon (dc : Nat) (sel : SprSeq → Bool) (h : Memory.wf s.mem.bytes) : Memory.wf (sprAbort dc sel s).mem.bytes :=
  forEach_canon (fun _ _ h => sprEnding_canon _ _ _ h) _ h

@[simp] theorem sprStop_canon (dc : Nat) (sel : Option Nat → Bool) (h : Memory.wf s.mem.bytes) : Memory.wf (sprStop dc sel s).mem.bytes := by
  unfold sprStop
  extract_lets t ids
  have ht : Memory.wf t.mem.bytes := by
    refine forEach_canon (fun s x h => ?_) _ h
    split
    · exact h
    · split
      · exact unlessBlocked_canon (by simp [h]) h
      · exact h
  clear_value t
  simp [ht]

/-! ### Dma -/

@[simp] theorem dmaSide_canon (dc space a n : Nat) (wr : Bool) (h : Memory.wf s.mem.bytes) : Memory.wf (dmaSide dc space a n wr s).1.mem.bytes := by
  unfold dmaSide
  dsimp only
  (repeat' split) <;> simp [h]

@[simp] theorem dmaPiece_canon (dc : Nat) (d : DmaDesc) (src dst n o : Nat) (h : Memory.wf s.mem.bytes) :
    Memory.wf (dmaPiece dc d src dst n o s).1.mem.bytes := by
  unfold dmaPiece
  extract_lets a b
  have ha : Memory.wf a.1.mem.bytes := dmaSide_canon _ _ _ _ _ h
  have hb : Memory.wf b.1.mem.bytes := dmaSide_canon _ _ _ _ _ ha
  clear_value b a
  split
  · exact ha
  · split
    · exact hb
    · extract_lets ok rd data wr
      have hrd : Memory.wf rd.1.mem.bytes := by
        unfold rd
        split <;> simp [hb]
      clear_value rd
      have hwr : Memory.wf wr.1.mem.bytes := by
        unfold wr
        split <;> simp [hrd]
      clear_value wr
      (repeat' split) <;> simp [hb, hrd, hwr]

@[simp] theorem dmaPieces_canon (dc : Nat) (d : DmaDesc) (ps : List (Nat × Nat × Nat × Nat)) (h : Memory.wf s.mem.bytes) :
    Memory.wf (dmaPieces dc d ps s).1.mem.bytes := by
  induction ps generalizing s with
  | nil => exact h
  | cons p ps ih =>
    unfold dmaPieces
    dsimp only
    split <;> simp [h, ih]

@[simp] theorem dmaRows_canon (dc : Nat) (d : DmaDesc) (i : Nat) (rs : List Nat) (h : Memory.wf s.mem.bytes) :
    Memory.wf (dmaRows dc d i rs s).1.mem.bytes := by
  induction rs generalizing s with
  | nil => exact h
  | cons r rs ih =>
    unfold dmaRows
    dsimp only
    split <;> simp [h, ih]

@[simp] theorem dmaCopy_canon (dc : Nat) (d : DmaDesc) (i n : Nat) (h : Memory.wf s.mem.bytes) : Memory.wf (dmaCopy dc d i n s).1.mem.bytes := by
  unfold dmaCopy
  split <;> simp [h]

@[simp] theorem dmaLoad_canon (dc addr : Nat) (h : Memory.wf s.mem.bytes) : Memory.wf (dmaLoad dc addr s).mem.bytes := by
  unfold dmaLoad
  dsimp only
  (repeat' split) <;> simp [h]

@[simp] theorem dmaStart_canon (dc : Nat) (h : Memory.wf s.mem.bytes) : Memory.wf (dmaStart dc s).mem.bytes := by
  unfold dmaStart
  dsimp only
  split <;> simp [h]

@[simp] theorem dmaStop_canon (dc rows : Nat) (h : Memory.wf s.mem.bytes) : Memory.wf (dmaStop dc rows s).mem.bytes := by
  unfold dmaStop
  dsimp only
  split <;> simp [h]

@[simp] theorem dmaHalt_canon (dc : Nat) (h : Memory.wf s.mem.bytes) : Memory.wf (dmaHalt dc s).mem.bytes := by
  unfold dmaHalt
  dsimp only
  split
  · exact unlessBlocked_canon (dmaStop_canon _ _ (by simp [h])) (by simp [h])
  · exact dmaStop_canon _ _ h
  · exact h

@[simp] theorem dmaIterate_canon (dc : Nat) (h : Memory.wf s.mem.bytes) : Memory.wf (dmaIterate dc s).mem.bytes := by
  unfold dmaIterate
  dsimp only
  (repeat' split) <;> simp [h]

@[simp] theorem verticalMove_canon (c : Nat) (p : MOp) (x : Piece) (h : Memory.wf s.mem.bytes) : Memory.wf (verticalMove c p x s).mem.bytes := by
  unfold verticalMove
  dsimp only
  (repeat' split) <;> simp [h]

@[simp] theorem verticalReceive_canon (c : Nat) (u : VUser) (ok : Bool) (h : Memory.wf s.mem.bytes) :
    Memory.wf (verticalReceive c u ok s).mem.bytes := by
  unfold verticalReceive
  (repeat' split) <;> simp [h]

/-! ### Registers -/

@[simp] theorem dmaCtrl_canon (dc v : Nat) (h : Memory.wf s.mem.bytes) : Memory.wf (dmaCtrl dc v s).mem.bytes := by
  unfold dmaCtrl
  dsimp only
  (repeat' split) <;> simp [h]

@[simp] theorem sprCtrlWrite_canon (dc v : Nat) (h : Memory.wf s.mem.bytes) : Memory.wf (sprCtrlWrite dc v s).mem.bytes := by
  unfold sprCtrlWrite
  split <;> simp [h]

@[simp] theorem cluWriteUnit_canon (dc u v : Nat) (h : Memory.wf s.mem.bytes) : Memory.wf (cluWriteUnit dc u v s).mem.bytes := by
  unfold cluWriteUnit
  refine ite_canon ?_ ?_
  · split
    · rw [updSeq_mem]; exact h
    · rw [updSeq_mem]; exact h
    · rw [updSeq_mem]; exact h
    · exact h
  · repeat' with_reducible refine ite_canon ?_ ?_
    all_goals simp -implicitDefEqProofs [h]

/-! ### Resets -/

@[simp] theorem coreReset_canon (c : Nat) (h : Memory.wf s.mem.bytes) : Memory.wf (coreReset c s).mem.bytes := by simp [coreReset, h]
@[simp] theorem clusterReset_canon (dc : Nat) (h : Memory.wf s.mem.bytes) : Memory.wf (clusterReset dc s).mem.bytes := by simp [clusterReset, h]

@[simp] theorem endChain_canon (q : Nat) (k : Nat) (h : Memory.wf s.mem.bytes) : Memory.wf (endChain q s k).mem.bytes := by
  unfold endChain
  dsimp only
  split <;> simp [h]

@[simp] theorem haltLinks_canon (q : Nat) (h : Memory.wf s.mem.bytes) : Memory.wf (haltLinks q s).mem.bytes := by
  unfold haltLinks
  refine forEach_canon (fun s k h => ?_) _ h
  have hr : ∀ (t : State) (rs : List RputJob), Memory.wf t.mem.bytes →
      Memory.wf (forEach rs (fun s r => sendAnswer k q r.spart r.mtag 3 s) t).mem.bytes := fun t rs h => by
    rw [forEach_mem fun _ _ => sendAnswer_mem ..]
    exact h
  dsimp only
  rw [updPort_mem]
  refine endChain_canon _ _ (hr _ _ ?_)
  split <;> simp [h]

@[simp] theorem stopPart_canon (q : Nat) (h : Memory.wf s.mem.bytes) : Memory.wf (stopPart q s).mem.bytes :=
  haltLinks_canon q <| forEach_canon (fun _ dc h => dmaHalt_canon dc <| sprStop_canon dc _ <|
    forEach_canon (fun _ n h => by simp [h]) _ h) _ h

@[simp] theorem beginReset_canon (q : Nat) (why : ResetWhy) (h : Memory.wf s.mem.bytes) : Memory.wf (beginReset q why s).mem.bytes := by
  refine stopPart_canon q ?_
  rw [updPart_mem]
  refine forEach_canon (fun s a h => ?_) _ h
  (repeat' split) <;> simp [h]

@[simp] theorem resetClusters_canon (q : Nat) (on : Bool) (h : Memory.wf s.mem.bytes) : Memory.wf (resetClusters q on s).mem.bytes := by
  unfold resetClusters
  extract_lets s1 s2 s3
  have h1 : Memory.wf s1.mem.bytes := forEach_canon (fun _ _ h => by simp [h]) _ h
  have h2 : Memory.wf s2.mem.bytes := by
    refine forEach_canon (fun s k h => ?_) _ h1
    simp [clearStack_canon k h]
  have h3 : Memory.wf s3.mem.bytes := h2
  clear_value s3 s2 s1
  split <;> exact forEach_canon (fun _ _ h => by simp [h]) _ h3

@[simp] theorem resetDrained_canon (q : Nat) (h : Memory.wf s.mem.bytes) : Memory.wf (resetDrained q s).mem.bytes := by
  unfold resetDrained
  (repeat' split) <;> simp [h]

@[simp] theorem endPartSession_canon (q : Nat) (h : Memory.wf s.mem.bytes) : Memory.wf (endPartSession q s).mem.bytes :=
  beginReset_canon q _ (forEach_canon (fun _ _ h => by simp [h]) _ h)

@[simp] theorem sessionEnded_canon (a q : Nat) (h : Memory.wf s.mem.bytes) : Memory.wf (sessionEnded a q s).mem.bytes :=
  beginReset_canon q _ (forEach_canon (fun _ _ h => by simp [h]) _ h)

@[simp] theorem endSession_canon (a : Nat) (h : Memory.wf s.mem.bytes) : Memory.wf (endSession a s).mem.bytes := by
  unfold endSession
  (repeat' split) <;> simp [h]

@[simp] theorem afterReply_canon (a : Nat) (r : Rec) (h : Memory.wf s.mem.bytes) : Memory.wf (afterReply a r s).mem.bytes := by
  unfold afterReply
  (repeat' split) <;> simp [h]

@[simp] theorem replyWrite_canon (a : Nat) (h : Memory.wf s.mem.bytes) : Memory.wf (replyWrite a s).mem.bytes := by
  unfold replyWrite
  split
  · exact h
  next s1 r hr =>
    have h1 : Memory.wf s1.mem.bytes := by rw [writeReply_mem hr]; exact h
    simp [h1]

@[simp] theorem unitReset_canon (a : Nat) (c : Cmd) (h : Memory.wf s.mem.bytes) : Memory.wf (unitReset a c s).mem.bytes := by
  unfold unitReset
  dsimp only
  (repeat' split) <;> simp [h]

/-! ### Bar0 -/

@[simp] theorem abandon_canon (a : Nat) (h : Memory.wf s.mem.bytes) : Memory.wf (abandon a s).mem.bytes := by simp [abandon, h]

@[simp] theorem apCtrlWrite_canon (a v : Nat) (h : Memory.wf s.mem.bytes) : Memory.wf (apCtrlWrite a v s).mem.bytes := by
  unfold apCtrlWrite
  split <;> simp [h]

@[simp] theorem apRegWrite_canon (a u v : Nat) (h : Memory.wf s.mem.bytes) : Memory.wf (apRegWrite a u v s).mem.bytes := by
  unfold apRegWrite
  split
  · exact apCtrlWrite_canon a v h
  all_goals simp -implicitDefEqProofs [h]

@[simp] theorem bar0Write_canon (o v : Nat) (h : Memory.wf s.mem.bytes) : Memory.wf (bar0Write o v s).mem.bytes := by
  unfold bar0Write
  extract_lets i
  clear_value i
  split
  · rw [withPcie_mem]
    exact h
  · split
    · exact apRegWrite_canon _ _ _ h
    · split
      · rw [msixWrite_mem, msixWrite_mem]
        exact h
      · exact h

@[simp] theorem functionReset_canon (h : Memory.wf s.mem.bytes) : Memory.wf (functionReset s).mem.bytes := by
  refine forEach_canon (fun _ _ h => by simp [h]) _ (forEach_canon (fun s q h => ?_) _ ?_)
  · split <;> simp [h]
  · split <;> simp [h]

@[simp] theorem paRegWrite_canon (addr : Nat) (bs : List Byte) (h : Memory.wf s.mem.bytes) : Memory.wf (paRegWrite addr bs s).mem.bytes := by
  have hf : ∀ (f : State → Nat × Nat → State) (us : List (Nat × Nat)),
    (∀ s u, Memory.wf s.mem.bytes → Memory.wf (f s u).mem.bytes) → Memory.wf (us.foldl f s).mem.bytes :=
    fun f us hf => forEach_canon hf us h
  unfold paRegWrite
  dsimp only
  split
  · (repeat' split)
    · exact hf _ _ fun _ _ h => cluWriteUnit_canon _ _ _ h
    · exact h
    · exact h
  · (repeat' split)
    · exact hf _ _ fun _ _ h => by simp [h]
    · exact h
    · exact h
  · split <;> simp [h]
  · exact h

/-! ### HostMem -/

@[simp] theorem writeChunk_canon (a : Nat) (c : Cmd) (data : List Byte) (h : Memory.wf s.mem.bytes) :
    Memory.wf (writeChunk a c data s).mem.bytes := by
  unfold writeChunk
  dsimp only
  (repeat' split) <;> simp [h]

@[simp] theorem readChunk_canon (a : Nat) (ss : Session) (c : Cmd) (h : Memory.wf s.mem.bytes) : Memory.wf (readChunk a ss c s).mem.bytes := by
  unfold readChunk
  dsimp only
  (repeat' split) <;> simp [h]

@[simp] theorem xloadChunk_canon (a : Nat) (c : Cmd) (data : List Byte) (h : Memory.wf s.mem.bytes) :
    Memory.wf (xloadChunk a c data s).mem.bytes := by simp [xloadChunk, h]

@[simp] theorem bcastStep_canon (a : Nat) (c : Cmd) (b : BcastJob) (h : Memory.wf s.mem.bytes) :
    Memory.wf (bcastStep a c b s).mem.bytes := by simp [bcastStep, h]

@[simp] theorem bcastChunk_canon (a : Nat) (c : Cmd) (data : List Byte) (h : Memory.wf s.mem.bytes) :
    Memory.wf (bcastChunk a c data s).mem.bytes := by
  unfold bcastChunk
  dsimp only
  split <;> simp [h]

@[simp] theorem chunkRun_canon (a : Nat) (c : Cmd) (data tag : List Byte) (h : Memory.wf s.mem.bytes) :
    Memory.wf (chunkRun a c data tag s).mem.bytes := by
  unfold chunkRun
  split
  · exact jobStep_canon _ _ _ (fun _ h => by split <;> simp [h]) _ (runJob_canon _ _ h)
  · exact bcastStep_canon _ _ _ h
  · simp [h]
  · split
    · exact h
    · split
      · exact chunkIn_canon _ _ _ _ _ _ _ _ (fun _ _ h => writeChunk_canon _ _ _ h) h
      · exact readChunk_canon _ _ _ h
      · exact chunkIn_canon _ _ _ _ _ _ _ _ (fun _ _ h => bcastChunk_canon _ _ _ h) h
      · exact chunkIn_canon _ _ _ _ _ _ _ _ (fun _ _ h => xloadChunk_canon _ _ _ h) h
      · exact chunkIn_canon _ _ _ _ _ _ _ _ (fun _ _ h => by simp [h]) h
      · exact h

@[simp] theorem dmaChunk_canon (a : Nat) (data tag : List Byte) (h : Memory.wf s.mem.bytes) : Memory.wf (dmaChunk a data tag s).mem.bytes := by
  unfold dmaChunk
  (repeat' split) <;> simp [h]

@[simp] theorem dmaWriteRun_canon (a : Nat) (c : Cmd) (h : Memory.wf s.mem.bytes) : Memory.wf (dmaWriteRun a c s).mem.bytes := by
  unfold dmaWriteRun
  dsimp only
  split <;> simp [h]

@[simp] theorem bcastWriteRun_canon (a : Nat) (chunks : List (List Byte × List Byte)) (h : Memory.wf s.mem.bytes) :
    Memory.wf (bcastWriteRun a chunks s).mem.bytes :=
  forEach_canon (fun _ _ h => dmaChunk_canon _ _ _ h) _ h

/-! ### LinkChains -/

@[simp] theorem chainSt_canon (k q : Nat) (f : Chain → Chain) (h : Memory.wf s.mem.bytes) :
    Memory.wf (chainSt k q f s).mem.bytes := by simp [chainSt, h]

@[simp] theorem chainError_canon (k q code : Nat) (h : Memory.wf s.mem.bytes) : Memory.wf (chainError k q code s).mem.bytes := by simp [chainError, h]

@[simp] theorem chainBegin_canon (k q : Nat) (d : ChainDesc) (i : Nat) (h : Memory.wf s.mem.bytes) :
    Memory.wf (chainBegin k q d i s).mem.bytes := by simp [chainBegin, h]

@[simp] theorem chainLoad_canon (k q addr : Nat) (h : Memory.wf s.mem.bytes) : Memory.wf (chainLoad k q addr s).mem.bytes := by
  unfold chainLoad
  extract_lets s0 x
  have hx : Memory.wf x.1.mem.bytes := linkXl_canon _ _ _ _ h
  clear_value x
  split
  · exact chainError_canon _ _ _ hx
  next ps _ =>
    extract_lets r
    have hr : Memory.wf r.1.mem.bytes := farLoad_canon _ _ _ hx
    clear_value r
    (repeat' split) <;> simp [hr]

@[simp] theorem chainStart_canon (k q : Nat) (salvage : Bool) (h : Memory.wf s.mem.bytes) : Memory.wf (chainStart k q salvage s).mem.bytes := by
  unfold chainStart
  extract_lets a s0 x
  have hx : Memory.wf x.1.mem.bytes := linkXl_canon _ _ _ _ h
  clear_value x
  split
  · exact hx
  next ps _ =>
    extract_lets r hd
    have hr : Memory.wf r.1.mem.bytes := farLoad_canon _ _ _ hx
    clear_value hd r
    split <;> simp [hr]

@[simp] theorem localRead_canon (k q sp a n : Nat) (h : Memory.wf s.mem.bytes) : Memory.wf (localRead k q sp a n s).1.mem.bytes := by
  unfold localRead
  dsimp only
  (repeat' split) <;> simp [h]

@[simp] theorem localJob_canon (k q sp a : Nat) (data : List Byte) (h : Memory.wf s.mem.bytes) :
    Memory.wf (localJob k q sp a data s).1.mem.bytes := by
  unfold localJob
  dsimp only
  (repeat' split) <;> simp [h]

@[simp] theorem chainSend_canon (k q : Nat) (h : Memory.wf s.mem.bytes) : Memory.wf (chainSend k q s).1.mem.bytes := by
  unfold chainSend
  dsimp only
  (repeat' split) <;> simp [h]

@[simp] theorem sendFirst_canon (k : Nat) (qs : List Nat) (h : Memory.wf s.mem.bytes) : Memory.wf (sendFirst k qs s).1.mem.bytes := by
  induction qs generalizing s with
  | nil => exact h
  | cons q qs ih =>
    unfold sendFirst
    dsimp only
    split <;> simp [h, ih]

@[simp] theorem sendChains_canon (k n : Nat) (h : Memory.wf s.mem.bytes) : Memory.wf (sendChains k n s).mem.bytes := by
  induction n generalizing s with
  | zero => exact h
  | succ n ih =>
    unfold sendChains
    dsimp only
    split <;> simp [h, ih]

@[simp] theorem pumpChains_canon (k : Nat) (h : Memory.wf s.mem.bytes) : Memory.wf (pumpChains k s).mem.bytes := by
  unfold pumpChains
  split <;> simp [h]

@[simp] theorem chainTake_canon (k q : Nat) (h : Memory.wf s.mem.bytes) : Memory.wf (chainTake k q s).mem.bytes := by
  unfold chainTake
  extract_lets c
  split
  next d _ _ =>
    extract_lets v r
    have hr : Memory.wf r.1.mem.bytes := overFabric_canon _ _ _ _ _ _ (fun _ h => h) h
    clear_value r
    split
    · refine pumpChains_canon k ?_
      split
      · exact chainSt_canon _ _ _ hr
      · exact chainError_canon _ _ _ hr
    · exact h
  · exact h

@[simp] theorem chainIterate_canon (k q : Nat) (h : Memory.wf s.mem.bytes) : Memory.wf (chainIterate k q s).mem.bytes := by
  unfold chainIterate
  dsimp only
  (repeat' split) <;> simp [h]

@[simp] theorem startLinks_canon (q : Nat) (salvage : Bool) (h : Memory.wf s.mem.bytes) : Memory.wf (startLinks q salvage s).mem.bytes := by
  unfold startLinks
  refine forEach_canon (fun s k h => ?_) _ h
  split
  · exact pumpChains_canon _ (chainStart_canon _ _ _ h)
  · exact h

@[simp] theorem partRunStart_canon (a : Nat) (h : Memory.wf s.mem.bytes) : Memory.wf (partRunStart a s).mem.bytes := by
  unfold partRunStart
  split
  · exact h
  next q _ =>
    split
    · simp [h]
    · extract_lets s1
      have h1 : Memory.wf s1.mem.bytes := forEach_canon (fun _ dc h => forEach_canon (fun _ n h => by simp [h]) _ h) _ h
      clear_value s1
      simp [h1]

/-! ### Streams -/

@[simp] theorem fetchUnit_canon (dc n u : Nat) (t : Tlb) (h : Memory.wf s.mem.bytes) : Memory.wf (fetchUnit dc n u t s).mem.bytes := by
  unfold fetchUnit
  dsimp only
  (repeat' split) <;> simp [h]

@[simp] theorem seqFetchEff_canon (dc n : Nat) (h : Memory.wf s.mem.bytes) : Memory.wf (seqFetchEff dc n s).mem.bytes := by
  unfold seqFetchEff
  dsimp only
  (repeat' split) <;> simp [h]

/-! ### Walks -/

@[simp] theorem seqWalked_canon (dc n va : Nat) (e : XlEnd) (h : Memory.wf s.mem.bytes) : Memory.wf (seqWalked dc n va e s).mem.bytes := by
  unfold seqWalked
  dsimp only
  (repeat' split) <;> simp [h]

@[simp] theorem walkDone_canon (w : Walk) (h : Memory.wf s.mem.bytes) : Memory.wf (walkDone w s).mem.bytes := by
  unfold walkDone
  split <;> simp [h]

/-! ### LinkRx -/

@[simp] theorem portDown_canon (k reason : Nat) (h : Memory.wf s.mem.bytes) : Memory.wf (portDown k reason s).mem.bytes := by
  have hc : ∀ (qs : List Nat) (t : State), Memory.wf t.mem.bytes → Memory.wf (forEach qs (fun s q => chainError k q 4 s) t).mem.bytes :=
    fun qs t ht => forEach_canon (fun _ _ h => chainError_canon _ _ _ h) qs ht
  unfold portDown
  dsimp only
  rw [settleCommit_mem, steer_mem]
  split <;> exact hc _ _ (by simp [h])

@[simp] theorem replay_canon (k : Nat) (h : Memory.wf s.mem.bytes) : Memory.wf (replay k s).mem.bytes := by
  unfold replay
  dsimp only
  (repeat' split) <;> simp [h]

@[simp] theorem flitGood_canon (k sent : Nat) (bs : List Byte) (h : Memory.wf s.mem.bytes) : Memory.wf (flitGood k sent bs s).mem.bytes := by
  unfold flitGood
  dsimp only
  (repeat' split) <;> simp [h]

@[simp] theorem flitIn_canon (k : Nat) (flit : List Byte) (noise : List (Nat × List (Nat × Nat))) (h : Memory.wf s.mem.bytes) :
    Memory.wf (flitIn k flit noise s).mem.bytes := by
  unfold flitIn
  dsimp only
  (repeat' split) <;> simp [h]

@[simp] theorem withMsg_canon (k v : Nat) (sel : MsgHdr → Bool) (f : InMsg → MsgHdr → List Byte → State → State)
    (hf : ∀ m x bs s, Memory.wf s.mem.bytes → Memory.wf (f m x bs s).mem.bytes) (h : Memory.wf s.mem.bytes) :
    Memory.wf (withMsg k v sel f s).mem.bytes := by
  unfold withMsg
  dsimp only
  (repeat' split) <;> simp [h, hf]

@[simp] theorem putJob_canon (k : Nat) (x : MsgHdr) (data : List Byte) (h : Memory.wf s.mem.bytes) : Memory.wf (putJob k x data s).1.mem.bytes := by
  unfold putJob
  dsimp only
  (repeat' split) <;> simp [h]

@[simp] theorem putStep_canon (k : Nat) (x : MsgHdr) (j : OutJob) (h : Memory.wf s.mem.bytes) : Memory.wf (putStep k x j s).mem.bytes := by
  unfold putStep
  dsimp only
  split <;> simp [h]

@[simp] theorem putIn_canon (k : Nat) (x : MsgHdr) (data : List Byte) (h : Memory.wf s.mem.bytes) : Memory.wf (putIn k x data s).mem.bytes := by
  unfold putIn
  dsimp only
  split <;> simp [h]

@[simp] theorem serveVc1_canon (k type : Nat) (go : MsgHdr → OutJob → State → State) (f : MsgHdr → List Byte → State → State)
    (hg : ∀ x j s, Memory.wf s.mem.bytes → Memory.wf (go x j s).mem.bytes)
    (hf : ∀ x bs s, Memory.wf s.mem.bytes → Memory.wf (f x bs s).mem.bytes)
    (h : Memory.wf s.mem.bytes) :
    Memory.wf (serveVc1 k type go f s).mem.bytes := by
  unfold serveVc1
  (repeat' split)
  · exact h
  · exact withMsg_canon _ _ _ _ (fun _ _ _ _ h => hf _ _ _ h) h
  · exact hg _ _ _ h
  · exact h

@[simp] theorem getBytes_canon (k : Nat) (x : MsgHdr) (h : Memory.wf s.mem.bytes) : Memory.wf (getBytes k x s).1.mem.bytes := by
  unfold getBytes
  dsimp only
  (repeat' split) <;> simp [h]

@[simp] theorem getDone_canon (k tag code : Nat) (h : Memory.wf s.mem.bytes) : Memory.wf (getDone k tag code s).mem.bytes := by
  unfold getDone
  (repeat' split) <;> simp [h]

@[simp] theorem respStep_canon (k : Nat) (x : MsgHdr) (j : OutJob) (h : Memory.wf s.mem.bytes) : Memory.wf (respStep k x j s).mem.bytes := by
  unfold respStep
  dsimp only
  split <;> simp [h]

@[simp] theorem getRespIn_canon (k : Nat) (x : MsgHdr) (data : List Byte) (h : Memory.wf s.mem.bytes) :
    Memory.wf (getRespIn k x data s).mem.bytes := by
  unfold getRespIn
  dsimp only
  (repeat' split) <;> simp [h]

@[simp] theorem linkAnswerIn_canon (k : Nat) (x : MsgHdr) (h : Memory.wf s.mem.bytes) : Memory.wf (linkAnswerIn k x s).mem.bytes := by
  unfold linkAnswerIn
  dsimp only
  (repeat' split) <;> simp [h]

/-! ### LinkTrain -/

@[simp] theorem readiness_canon (k : Nat) (tx rx : List LaneTest) (h : Memory.wf s.mem.bytes) : Memory.wf (readiness k tx rx s).mem.bytes := by
  unfold readiness
  (repeat' split) <;> simp [h]

@[simp] theorem withControl_canon (k sub step : Nat) (f : List Byte → State → State)
    (hf : ∀ bs s, Memory.wf s.mem.bytes → Memory.wf (f bs s).mem.bytes) (h : Memory.wf s.mem.bytes) :
    Memory.wf (withControl k sub step f s).mem.bytes := by
  unfold withControl
  split
  · refine withMsg_canon _ _ _ _ (fun _ _ bs s hs => ?_) h
    split
    · exact hf _ _ hs
    · exact portDown_canon k 3 hs
  · exact h

@[simp] theorem helloIn_canon (k : Nat) (data : List Byte) (h : Memory.wf s.mem.bytes) : Memory.wf (helloIn k data s).mem.bytes := by
  unfold helloIn
  extract_lets peer s1
  have h1 : Memory.wf s1.mem.bytes := h
  clear_value s1
  (repeat' split)
  · exact portDown_canon _ _ h1
  · exact portDown_canon _ _ h1
  · exact forEach_canon (fun _ _ h => by simp [h]) _ h1

@[simp] theorem keyxOut_canon (k : Nat) (h : Memory.wf s.mem.bytes) : Memory.wf (keyxOut k s).mem.bytes := by
  unfold keyxOut
  dsimp only
  split <;> simp [h]

@[simp] theorem certIn_canon (k : Nat) (data : List Byte) (h : Memory.wf s.mem.bytes) : Memory.wf (certIn k data s).mem.bytes := by
  unfold certIn
  split <;> simp [h]

@[simp] theorem keyxIn_canon (k : Nat) (data : List Byte) (h : Memory.wf s.mem.bytes) : Memory.wf (keyxIn k data s).mem.bytes := by
  unfold keyxIn
  dsimp only
  split <;> simp [h]

@[simp] theorem finishIn_canon (k : Nat) (data : List Byte) (h : Memory.wf s.mem.bytes) : Memory.wf (finishIn k data s).mem.bytes := by
  unfold finishIn
  split <;> simp [h]

@[simp] theorem retrainDone_canon (k : Nat) (tx rx : List LaneTest) (marks : List (Nat × Nat)) (h : Memory.wf s.mem.bytes) :
    Memory.wf (retrainDone k tx rx marks s).mem.bytes := by
  unfold retrainDone
  dsimp only
  (repeat' split) <;> simp [h]

/-! ### Salvage -/

@[simp] theorem cluAbort_canon (dc : Nat) (h : Memory.wf s.mem.bytes) : Memory.wf (cluAbort dc s).mem.bytes := by
  unfold cluAbort
  refine sprAbort_canon dc _ (dmaHalt_canon dc ?_)
  rw [forEach_mem fun _ _ => seqAbort_mem ..]
  exact h

@[simp] theorem enterSalvage_canon (q cause : Nat) (h : Memory.wf s.mem.bytes) : Memory.wf (enterSalvage q cause s).mem.bytes := by
  unfold enterSalvage
  extract_lets st t u v
  have hu : Memory.wf u.mem.bytes := by
    unfold u t
    refine forEach_canon (fun _ dc h => ?_) _ (by simp [h])
    rw [cluDown_mem]
    exact cluAbort_canon dc h
  have hv : Memory.wf v.mem.bytes := by
    unfold v
    exact startLinks_canon q true (haltLinks_canon q hu)
  clear_value v
  split
  · exact h
  · exact hv

@[simp] theorem stopClusters_canon (dcs : List Nat) (h : Memory.wf s.mem.bytes) : Memory.wf (stopClusters dcs s).mem.bytes := by
  refine forEach_canon (fun s dc h => ?_) _ h
  dsimp only
  split
  · simp [cluAbort_canon dc h]
  · simp [h]

@[simp] theorem salvageStack_canon (k cause : Nat) (h : Memory.wf s.mem.bytes) : Memory.wf (salvageStack k cause s).mem.bytes := by
  unfold salvageStack
  split <;> simp [h]

@[simp] theorem stopRegion_canon (d r : Nat) (h : Memory.wf s.mem.bytes) : Memory.wf (stopRegion d r s).mem.bytes := by simp [stopRegion, h]

/-! ### PowerCmds -/

@[simp] theorem currentSample_canon (i amps : Nat) (h : Memory.wf s.mem.bytes) : Memory.wf (currentSample i amps s).mem.bytes := by
  unfold currentSample
  split
  · exact h
  · extract_lets d r x t y
    have ht : Memory.wf t.mem.bytes := by
      unfold t
      rw [updRgn_mem]
      exact h
    clear_value y t
    (repeat' split) <;> simp [ht]

@[simp] theorem memRailFault_canon (k : Nat) (rail : Rail) (h : Memory.wf s.mem.bytes) :
    Memory.wf (memRailFault k rail s).mem.bytes := by simp [memRailFault, h]

@[simp] theorem portRailFault_canon (k : Nat) (rail : Rail) (h : Memory.wf s.mem.bytes) : Memory.wf (portRailFault k rail s).mem.bytes := by
  unfold portRailFault
  rw [railOff_mem]
  refine forEach_canon (fun s p h => ?_) _ h
  split <;> simp [h]

@[simp] theorem regulatorFault_canon (rail : Rail) (h : Memory.wf s.mem.bytes) : Memory.wf (regulatorFault rail s).mem.bytes := by
  unfold regulatorFault
  dsimp only
  (repeat' split) <;> simp [h]

/-! ### ThermalCmds -/

@[simp] theorem trip_canon (h : Memory.wf s.mem.bytes) : Memory.wf (trip s).mem.bytes := by
  have hs : ∀ t : State, Memory.wf t.mem.bytes → Memory.wf (forEach (List.range 6) (fun s q => enterSalvage q caTrip s) t).mem.bytes :=
    fun _ ht => forEach_canon (fun _ q h => enterSalvage_canon q _ h) _ ht
  unfold trip
  split
  · exact h
  · dsimp only
    rw [warnSevere_mem]
    exact hs _ (by simp [h])

@[simp] theorem sensorRead_canon (k : Nat) (xs : List SensorSample) (h : Memory.wf s.mem.bytes) : Memory.wf (sensorRead k xs s).mem.bytes := by
  unfold sensorRead
  split
  · exact h
  · extract_lets t
    have ht : Memory.wf t.mem.bytes := by
      unfold t
      rw [refreshHeat_mem]
      exact forEach_canon (fun _ i h => forEach_canon (fun _ j h => by simp [h]) _ h) _ h
    clear_value t
    split <;> simp [ht]

@[simp] theorem plausibility_canon (k i : Nat) (h : Memory.wf s.mem.bytes) : Memory.wf (plausibility k i s).mem.bytes := by
  unfold plausibility
  dsimp only
  (repeat' split) <;> simp [h]

@[simp] theorem overtemp_canon (k i : Nat) (h : Memory.wf s.mem.bytes) : Memory.wf (overtemp k i s).mem.bytes := by
  unfold overtemp
  split <;> simp [h]

/-! ### Boot -/

@[simp] theorem clearAll_canon (h : Memory.wf s.mem.bytes) : Memory.wf (clearAll s).mem.bytes := forEach_canon (fun _ k h => clearStack_canon k h) _ h
@[simp] theorem bootRepair_canon  (h : Memory.wf s.mem.bytes) : Memory.wf (bootRepair s).mem.bytes := by simp [bootRepair, h]

@[simp] theorem bootConfig_canon (x : BootSample) (cold : Bool) (h : Memory.wf s.mem.bytes) : Memory.wf (bootConfig x cold s).1.mem.bytes := by
  unfold bootConfig
  extract_lets fast t u v
  have hu : Memory.wf u.mem.bytes := by
    refine clearAll_canon ?_
    rw [applyMap_mem]
    split
    · exact h
    · rw [writeSettings_mem]
      exact h
  clear_value u
  split
  · rw [markStacks_mem]
    exact h
  · rw [updDev_mem, bootGood_mem, extendDev_mem]
    exact hu

@[simp] theorem stepWork7_canon (x : BootSample) (cold full : Bool) (n : Nat) (h : Memory.wf s.mem.bytes) :
    Memory.wf (stepWork7 x cold full n s).1.mem.bytes := by
  unfold stepWork7
  split <;> simp [h]

@[simp] theorem bootSteps_canon (x : BootSample) (cold full : Bool) (ns : List Nat) (h : Memory.wf s.mem.bytes) :
    Memory.wf (bootSteps x cold full ns s).mem.bytes := by
  induction ns generalizing s with
  | nil => exact h
  | cons n ns ih =>
    unfold bootSteps
    split
    · exact ih h
    · extract_lets side t r
      have ht : Memory.wf t.mem.bytes := h
      have hr : Memory.wf r.1.mem.bytes := stepWork7_canon _ _ _ _ ht
      clear_value r t
      split
      · exact ht
      · split
        next u c hu =>
          have hu : Memory.wf u.mem.bytes := by rw [stepFails_mem hu]; exact ht
          simp [hu]
        · split <;> simp [hr, ih]

@[simp] theorem boot_canon (x : BootSample) (cold full : Bool) (h : Memory.wf s.mem.bytes) :
    Memory.wf (boot x cold full s).mem.bytes := by simp [boot, h]

@[simp] theorem bootFrom_canon (x : BootSample) (cold full : Bool) (h : Memory.wf s.mem.bytes) :
    Memory.wf (bootFrom x cold full s).mem.bytes := by simp [bootFrom, h]

/-! ### Broadcast -/

@[simp] theorem bcastXl_canon (dc : Nat) (p : MOp) (pgs : List Nat) (h : Memory.wf s.mem.bytes) : Memory.wf (bcastXl dc p pgs s).1.mem.bytes := by
  induction pgs generalizing s p with
  | nil => exact h
  | cons pg pgs ih =>
    unfold bcastXl
    dsimp only
    (repeat' split) <;> simp [h, ih]

@[simp] theorem bcastPiece_canon (cs : List (Nat × Nat)) (x : Piece) (h : Memory.wf s.mem.bytes) : Memory.wf (bcastPiece cs x s).1.mem.bytes := by
  unfold bcastPiece
  split
  · exact h
  next l _ =>
    have hr := memLoad_canon l x.n 1 h
    dsimp only
    split
    · exact hr
    · refine forEach_canon (fun s c h => ?_) _ hr
      (repeat' split) <;> simp [h]

@[simp] theorem bcastPieces_canon (cs : List (Nat × Nat)) (xs : List Piece) (h : Memory.wf s.mem.bytes) :
    Memory.wf (bcastPieces cs xs s).1.mem.bytes := by
  induction xs generalizing s with
  | nil => exact h
  | cons x xs ih =>
    unfold bcastPieces
    dsimp only
    split <;> simp [h, ih]

@[simp] theorem bcastRun_canon (dc : Nat) (cs : List (Nat × Nat)) (p : MOp) (h : Memory.wf s.mem.bytes) :
    Memory.wf (bcastRun dc cs p s).mem.bytes := by
  unfold bcastRun
  extract_lets x y
  have hx : Memory.wf x.1.mem.bytes := bcastXl_canon _ _ _ h
  have hy : Memory.wf y.1.mem.bytes := bcastPieces_canon _ _ hx
  clear_value y x
  (repeat' split)
  · simp [hx]
  · simp [hy]
  · exact forEach_canon (fun _ _ h => by simp [h]) _ hy

@[simp] theorem bcastStart_canon (dc n : Nat) (h : Memory.wf s.mem.bytes) : Memory.wf (bcastStart dc n s).mem.bytes := by
  unfold bcastStart
  dsimp only
  (repeat' split) <;> simp [h]

/-! ### HostRun -/

@[simp] theorem regWriteRun_canon (a : Nat) (c : Cmd) (h : Memory.wf s.mem.bytes) : Memory.wf (regWriteRun a c s).mem.bytes := by
  unfold regWriteRun
  split
  · exact h
  next dc off _ =>
    refine atCtrl_canon _ _ _ _ (fun s h => ?_) h
    have h1 := cluWriteUnit_canon dc off (c.p 8 8) h
    dsimp only
    split <;> simp [h1]

@[simp] theorem streamBytes_canon (dc : Nat) (ps : List (Nat × Nat)) (h : Memory.wf s.mem.bytes) : Memory.wf (streamBytes dc ps s).1.mem.bytes := by
  induction ps generalizing s with
  | nil => exact h
  | cons p ps ih =>
    have hx : Memory.wf (xlNow (.cluster dc) (dcPart s dc) p.1 s).1.mem.bytes := xlNow_canon _ _ _ h
    unfold streamBytes
    dsimp only
    (repeat' split) <;> simp [hx, ih]

@[simp] theorem streamStartRun_canon (a : Nat) (c : Cmd) (h : Memory.wf s.mem.bytes) : Memory.wf (streamStartRun a c s).mem.bytes := by
  unfold streamStartRun
  dsimp only
  refine atCtrl_canon _ _ _ _ (fun s h => ?_) h
  have hb : Memory.wf (bindCores (c.p 2 1) (namedCores c) s).1.mem.bytes := by simp [h]
  have hm := streamBytes_canon (c.p 0 2) (cutPages (c.p 8 8) (c.p 16 8 - c.p 8 8)) hb
  split
  · simp [h]
  · split
    · simp [h]
    · split
      · simp [h]
      · split
        · simp [hm]
        · (repeat' split) <;> simp [hm]

@[simp] theorem springSlot_canon (dc q va : Nat) (h : Memory.wf s.mem.bytes) : Memory.wf (springSlot dc q va s).1.mem.bytes := by
  unfold springSlot
  dsimp only
  (repeat' split) <;> simp [h]

@[simp] theorem springSlots_canon (dc q : Nat) (d : List Byte) (js : List Nat) (h : Memory.wf s.mem.bytes) :
    Memory.wf (springSlots dc q d js s).1.mem.bytes := by
  induction js generalizing s d with
  | nil => exact h
  | cons j js ih =>
    unfold springSlots
    dsimp only
    (repeat' split) <;> simp [h, ih]

@[simp] theorem springSubmit_canon (a dc q va : Nat) (h : Memory.wf s.mem.bytes) : Memory.wf (springSubmit a dc q va s).mem.bytes := by
  unfold springSubmit
  extract_lets r
  have hr : Memory.wf r.1.mem.bytes := xlRange_canon _ _ _ _ _ h
  clear_value r
  split
  · simp [hr]
  · split
    · simp [hr]
    · extract_lets y x
      have hy : Memory.wf y.1.mem.bytes := farLoad_canon _ _ _ hr
      have hx : Memory.wf x.1.mem.bytes := by
        unfold x
        split <;> simp [hy]
      clear_value x y
      split
      · simp [hy]
      · split <;> simp [hx]

@[simp] theorem springCtrlRun_canon (a : Nat) (c : Cmd) (h : Memory.wf s.mem.bytes) : Memory.wf (springCtrlRun a c s).mem.bytes := by
  unfold springCtrlRun
  split
  · exact h
  · refine atCtrl_canon _ _ _ _ (fun s h => ?_) h
    (repeat' split) <;> simp [h]

/-! ### MemCmds -/

@[simp] theorem writeNow_canon (l : Nat) (p : Pkt) (h : Memory.wf s.mem.bytes) : Memory.wf (writeNow l p s).mem.bytes := by
  unfold writeNow
  dsimp only
  split <;> simp [h]

@[simp] theorem memWrite_canon (pid : Nat) (h : Memory.wf s.mem.bytes) : Memory.wf (memWrite pid s).mem.bytes := by
  unfold memWrite
  (repeat' split) <;> simp [h]

@[simp] theorem fillWaited_canon (pid : Nat) (h : Memory.wf s.mem.bytes) : Memory.wf (fillWaited pid s).mem.bytes := by
  unfold fillWaited
  (repeat' split) <;> simp [h]

@[simp] theorem memRead_canon (pid : Nat) (upset : List (Nat × Nat × Nat × Bool)) (lost : Bool) (h : Memory.wf s.mem.bytes) :
    Memory.wf (memRead pid upset lost s).mem.bytes := by
  unfold memRead
  split
  · exact h
  next l p _ =>
    extract_lets s0 s1 r
    have h0 : Memory.wf s0.mem.bytes := by
      unfold s0
      split <;> simp [h]
    have h1 : Memory.wf s1.mem.bytes := by
      refine forEach_canon (fun s u h => ?_) _ h0
      split <;> simp [h]
    have hr : Memory.wf r.1.mem.bytes := memLoad_canon _ _ _ h1
    clear_value r
    split <;> simp [hr]

@[simp] theorem scrubRead_canon (stack die : Nat) (upset : List (Nat × Nat × Bool)) (h : Memory.wf s.mem.bytes) :
    Memory.wf (scrubRead stack die upset s).mem.bytes := by
  unfold scrubRead
  dsimp only
  (repeat' split) <;> simp [h]

/-! ### PartCmds -/

@[simp] theorem drainExpire_canon (q : Nat) (h : Memory.wf s.mem.bytes) : Memory.wf (drainExpire q s).mem.bytes := by
  unfold drainExpire
  extract_lets p ss ds cs n s1 s2 s3 s4
  have h1 : Memory.wf s1.mem.bytes := forEach_canon (fun _ _ h => by simp [h]) _ h
  have h2 : Memory.wf s2.mem.bytes := forEach_canon (fun _ _ h => dmaHalt_canon _ h) _ h1
  have h3 : Memory.wf s3.mem.bytes := forEach_canon (fun _ _ h => sprAbort_canon _ _ h) _ h2
  have h4 : Memory.wf s4.mem.bytes := forEach_canon (fun _ _ h => by simp [endChain_canon _ _ h]) _ h3
  clear_value s4 s3 s2 s1
  split
  · simp [h4]
  · exact h

end Sys2Proof.Machine
end

section
/-! PROOFS. Every command keeps the memory in canonical form. -/

namespace Sys2Proof.Machine
variable {s : State}

/-! ### Boot -/

theorem packageReset_canon : Memory.wf (packageReset s).mem.bytes := by
  rw [packageReset_mem]
  rfl

theorem vauxGone_canon : Memory.wf (vauxGone s).mem.bytes := by
  rw [vauxGone_mem]
  rfl

/-! ### Dma -/

@[simp] theorem dmaWaits_canon (dc : Nat) {t : State} (ht : Memory.wf t.mem.bytes) (h : Memory.wf s.mem.bytes) :
    Memory.wf (dmaWaits dc s t).mem.bytes := by
  unfold dmaWaits
  (repeat' split) <;> simp [ht, h]

theorem withSide_mem (x : Side) : ({ s with side := x } : State).mem = s.mem := rfl

/-- Every state that an outcome leads to has its memory in canonical form. -/
def LeadsCanon (o : Host.Outcome State Fault Refusal) : Prop := ∀ t, o = .next t → Memory.wf t.mem.bytes

/-! ### Ops -/

theorem live_canon {t : State} (ht : Memory.wf t.mem.bytes) (h : Memory.wf s.mem.bytes) : LeadsCanon (live s t) := by
  unfold live
  split <;> rintro _ ⟨⟩
  · exact ofPackage_canon ht h
  · exact h

theorem pinned_canon {t : State} (ht : Memory.wf t.mem.bytes) (h : Memory.wf s.mem.bytes) : LeadsCanon (pinned s t) := by
  rintro _ ⟨⟩
  exact ofPackage_canon ht h

/-- A command of the device's service, where its action keeps the canonical form. -/
theorem cmdRun_leadsCanon {a op : Nat} {refs : Cmd → State → Option (Nat × Nat)} {legal : State → Bool} {body : Cmd → State → State}
    (hb : ∀ c s, Memory.wf s.mem.bytes → Memory.wf (body c s).mem.bytes) (h : Memory.wf s.mem.bytes) :
    LeadsCanon (live s (cmdRun a op refs legal body s)) := live_canon (cmdRun_canon _ _ _ _ _ hb h) h

/-! ### Dispatch -/

theorem exec_canon (i : Instr) (h : Memory.wf s.mem.bytes) : LeadsCanon (exec i s) := by
  cases i with
  | writePacketArrive pid => exact live_canon (by split <;> simp [h]) h
  | remoteReadArrive pid upset =>
    refine live_canon ?_ h
    split
    · rw [remoteRead_mem, forEach_mem fun _ _ => by simp]
      simp [h]
    · exact h
  | reductionPacketArrive pid => exact live_canon (by split <;> simp [h]) h
  | fabricHopReceive pid rx => exact live_canon (by split <;> simp [h]) h
  | sprSubmit dc pa => exact live_canon (ite_canon (sprSubmit_canon _ _ h) h) h
  | sprCtrlAbort dc => exact live_canon (ite_canon (sprAbort_canon _ _ h) h) h
  | cluDmaStart dc => exact live_canon (ite_canon (dmaStart_canon _ h) h) h
  | cluDmaStop dc rows => exact live_canon (ite_canon (dmaWaits_canon _ (dmaStop_canon _ _ h) h) h) h
  | dmaIterationComplete dc => exact live_canon (dmaWaits_canon _ (dmaIterate_canon _ h) h) h
  | translationWalkComplete walk => exact live_canon (by split <;> simp [h]) h
  | kvWalkComplete walk => exact live_canon (by split <;> simp [h]) h
  | registerWrite bar0 addr bytes => exact live_canon (ite_canon (ite_canon (bar0Write_canon _ _ h) h) (paRegWrite_canon _ _ h)) h
  | apCtrlEn ap v => exact live_canon (ite_canon (apCtrlWrite_canon _ _ h) h) h
  | apCtrlAbandon ap => exact live_canon (ite_canon (abandon_canon _ h) h) h
  | partDestroy ap => exact cmdRun_leadsCanon (fun _ _ h => beginReset_canon _ _ h) h
  | partCommit ap => exact cmdRun_leadsCanon (fun _ _ h => by split <;> simp [h]) h
  | partRun ap => exact cmdRun_leadsCanon (fun _ _ h => partRunStart_canon _ h) h
  | partReset ap => exact cmdRun_leadsCanon (fun _ _ h => by split <;> simp [h]) h
  | unitReset ap => exact cmdRun_leadsCanon (fun _ _ h => unitReset_canon _ _ h) h
  | dmaWrite ap => exact cmdRun_leadsCanon (fun _ _ h => dmaWriteRun_canon _ _ h) h
  | bcastWrite ap chunks => exact cmdRun_leadsCanon (fun _ _ h => bcastWriteRun_canon _ _ h) h
  | regWrite ap => exact cmdRun_leadsCanon (fun _ _ h => regWriteRun_canon _ _ h) h
  | streamStart ap => exact cmdRun_leadsCanon (fun _ _ h => streamStartRun_canon _ _ h) h
  | springCtrl ap => exact cmdRun_leadsCanon (fun _ _ h => springCtrlRun_canon _ _ h) h
  | linkPut port => exact live_canon (serveVc1_canon _ _ _ _ (fun _ _ _ h => putStep_canon _ _ _ h) (fun _ _ _ h => putIn_canon _ _ _ h) h) h
  | linkGet port =>
    exact live_canon (serveVc1_canon _ _ _ _ (fun _ _ _ h => h) (fun _ _ _ h => by rw [sendMsg_mem]; exact getBytes_canon _ _ h) h) h
  | linkRput port =>
    refine live_canon (ite_canon (withMsg_canon _ _ _ _ (fun _ _ _ _ h => ?_) h) h) h
    (repeat' split) <;> simp [h]
  | getresp port => exact live_canon (serveVc1_canon _ _ _ _ (fun _ _ _ h => respStep_canon _ _ _ h) (fun _ _ _ h => getRespIn_canon _ _ _ h) h) h
  | linkAnswer port => exact live_canon (ite_canon (withMsg_canon _ _ _ _ (fun _ _ _ _ h => linkAnswerIn_canon _ _ h) h) h) h
  | linkBarrier port => exact live_canon (ite_canon (withMsg_canon _ _ _ _ (fun _ _ _ _ h => by rw [updPort_mem]; exact h) h) h) h
  | timesync port => exact live_canon (ite_canon (withMsg_canon _ _ _ _ (fun _ _ _ _ h => by rw [timesyncIn_mem]; exact h) h) h) h
  | hello port => exact live_canon (withControl_canon _ _ _ _ (fun _ _ h => helloIn_canon _ _ h) h) h
  | cert port => exact live_canon (withControl_canon _ _ _ _ (fun _ _ h => certIn_canon _ _ h) h) h
  | keyx port => exact live_canon (withControl_canon _ _ _ _ (fun _ _ h => keyxIn_canon _ _ h) h) h
  | finish port => exact live_canon (withControl_canon _ _ _ _ (fun _ _ h => finishIn_canon _ _ h) h) h
  | linkTrainStepTimeout port => exact live_canon (ite_canon (portDown_canon _ _ h) h) h
  | laneMarkerLoss x => exact live_canon (ite_canon (portDown_canon _ _ h) h) h
  | pwrgdInRise x => exact pinned_canon (ite_canon (bootFrom_canon _ _ _ (by rw [withSide_mem]; exact h)) h) h
  | pwrgdInFall => exact pinned_canon (ite_canon packageReset_canon h) h
  | pkgRstNAssert => exact pinned_canon (ite_canon (ite_canon h packageReset_canon) (by rw [withSide_mem]; exact h)) h
  | pkgRstNRelease x =>
    refine pinned_canon (ite_canon ?_ h) h
    have hs : ∀ y : Side, Memory.wf ({ s with side := y } : State).mem.bytes := fun y => by rw [withSide_mem]; exact h
    exact ite_canon (bootFrom_canon _ _ _ (hs _)) (hs _)
  | watchdogExpire x =>
    exact pinned_canon (ite_canon h (ite_canon (by simp [h]) (bootFrom_canon _ _ _ packageReset_canon))) h
  | meridianResetRequest x => exact pinned_canon (ite_canon (bootFrom_canon _ _ _ packageReset_canon) h) h
  | vauxApply => exact pinned_canon (ite_canon h (by rw [withSide_mem]; exact vauxGone_canon)) h
  | vauxLoss => exact pinned_canon (ite_canon vauxGone_canon h) h
  | inletTemperatureWrite w => exact pinned_canon (by simp [h]) h
  | outletTemperatureWrite w => exact pinned_canon (by simp [h]) h
  | flowWrite w => exact pinned_canon (by simp [h]) h
  | supplyRedundancyWrite w => exact pinned_canon (by simp [h]) h
  | alertStatusRead => exact pinned_canon (by simp [h]) h
  | alertDriftClear w => exact pinned_canon (by simp [h]) h
  | alertMaskWrite w => exact pinned_canon (by simp [h]) h
  | _ => exact live_canon (by simp -implicitDefEqProofs [h]) h

end Sys2Proof.Machine
end

section
namespace Sys2Proof.Machine

/-- Settles O4: no command's effect (`exec_canon`), and no passing of time, takes the memory out of its canonical form. -/
theorem memoryStaysCanonical : Obligations.MemoryStaysCanonical := by
  intro s t h ht
  unfold step at ht
  split at ht
  next c rest _ => exact exec_canon c (s := { s with pending := rest }) h t ht
  · cases ht
    rw [tick_mem]
    exact h

end Sys2Proof.Machine
end

section
/-! PROOFS. What a column's memory port does with writes and reads (R186, R207 to R211): memory without errors delivers every word, and a write
within one word puts its bytes, validates its word and leaves the rest. -/

namespace Sys2Proof.Machine
variable {s t : State} {l w : Nat} {data : List (Option Byte)}

/-! ### Words without errors -/

/-- A memory without errors delivers every word (R263). -/
theorem readWord_clean (hf : s.mem.flips = []) (hp : s.mem.poison = []) (w rq : Nat) : readWord w rq s = (s, true) := by
  have clean : wordClass s w = .clean := by
    unfold wordClass
    rw [hf, hp]
    rfl
  unfold readWord
  rw [clean]
  exact ite_self _

theorem badWords_clean (hf : s.mem.flips = []) (hp : s.mem.poison = []) (l n : Nat) : badWords s l n = [] := by
  simp [badWords, hf, hp]

theorem countMem_fields (l n : Nat) (s : State) : (countMem l n s).cores = s.cores ∧ (countMem l n s).mem = s.mem ∧
    (countMem l n s).net = s.net ∧ (countMem l n s).blocked = s.blocked := by
  obtain ⟨cores, mem, net, -, blocked⟩ := Counted_fields
    (Counted_countAct (c := locDc l) (n := ceilDiv (l % 128 + n) 128) (s := s) (if locIsTarn l then akTarn else akDram (locMDie l)))
  exact ⟨cores, mem, net, blocked⟩

/-- A read of memory without errors delivers its bytes, and is counted (R208, R378). -/
theorem memLoad_clean (hf : s.mem.flips = []) (hp : s.mem.poison = []) (hr : railDead s l = false) (n rq : Nat) :
    memLoad l n rq s = (countMem l n s, none, memBytes s.mem.bytes l n) := by
  simp [memLoad, hr, badWords_clean hf hp, readWords]

/-! ### A write within one word -/

theorem natBit_eq_testBit (x i : Nat) : natBit x i = x.testBit i := by
  rw [natBit, Nat.testBit_eq_decide_div_mod_eq]
  rfl

theorem contains_setIns (xs : List Nat) (k : Nat) : (setIns xs k).contains k = true :=
  List.contains_iff_mem.2 ((mem_setIns xs k k).2 (.inl rfl))

/-- Whether a word stands depends on the valid stores and the fills alone. -/
theorem wordValid_congr (h1 : t.mem.tarnValid = s.mem.tarnValid) (h2 : t.mem.dramValid = s.mem.dramValid) (h3 : t.mem.fills = s.mem.fills)
    (w : Nat) : wordValid t w = wordValid s w := by
  simp only [wordValid, h1, h2, h3]

/-- After a write of a word its granule or page, or its fill, holds it (R209 to R211). -/
theorem wordValid_markWritten {m : Mem} (h : t.mem = markWritten w m) : wordValid t w = true := by
  unfold wordValid
  rw [h]
  unfold markWritten
  dsimp only
  split
  · exact contains_setIns ..
  · split
    next hd => exact Bool.or_eq_true_iff.2 (.inl hd)
    · split
      next hf =>
        obtain ⟨f, hmem, hpage⟩ := List.any_eq_true.1 hf
        refine Bool.or_eq_true_iff.2 (.inr (List.any_eq_true.2 ⟨_, List.mem_map.2 ⟨f, hmem, rfl⟩, ?_⟩))
        simp [hpage, natBit_eq_testBit]
      · simp [natBit_eq_testBit]

/-- The valid stores and the fills do not depend on stuck cells. -/
theorem resettle_fields (ws : List Nat) (s : State) : (resettle ws s).cores = s.cores ∧ (resettle ws s).net = s.net ∧
    (resettle ws s).blocked = s.blocked ∧ (resettle ws s).mem.tarnValid = s.mem.tarnValid ∧
    (resettle ws s).mem.dramValid = s.mem.dramValid ∧ (resettle ws s).mem.fills = s.mem.fills := by
  unfold resettle
  split
  · exact ⟨rfl, rfl, rfl, rfl, rfl, rfl⟩
  · exact ⟨rfl, rfl, rfl, rfl, rfl, rfl⟩

theorem kvWriteSnoop_fields (l n : Nat) (s : State) : (kvWriteSnoop l n s).cores = s.cores ∧ (kvWriteSnoop l n s).net = s.net ∧
    (kvWriteSnoop l n s).blocked = s.blocked := by
  unfold kvWriteSnoop
  dsimp only
  split
  · exact ⟨rfl, rfl, rfl⟩
  · split
    · exact ⟨rfl, rfl, rfl⟩
    · exact ⟨rfl, rfl, rfl⟩

/-- What a write of one word's bytes makes of the memories, but for stuck cells and the walkers' translations. -/
def wordPut (l : Nat) (data : List (Option Byte)) (m : Mem) : Mem :=
  markWritten (l / 128) { m with
    bytes := memMask m.bytes l data
    flips := smapErase m.flips (l / 128)
    poison := setDel m.poison (l / 128)
    poisonSeen := setDel m.poisonSeen (l / 128)
    writeBack := setDel m.writeBack (l / 128) }

/-- The words whose stuck cells show once a word is written: on a Tarn granule's first write, all of it (R208). -/
def wordsSettled (l : Nat) (s : State) : List Nat :=
  if locIsTarn l && !s.mem.tarnValid.contains (l / 512) then (List.range 4).map (l / 512 * 4 + ·) else [l / 128]

theorem putWord_eq (l : Nat) (data : List (Option Byte)) (s : State) :
    putWord l data s = kvWriteSnoop l data.length (resettle (wordsSettled l s) (updMem s (wordPut l data))) := rfl

theorem putWord_bytes (l : Nat) (data : List (Option Byte)) (s : State) : (putWord l data s).mem.bytes = memMask s.mem.bytes l data := by
  rw [putWord_eq, kvWriteSnoop_mem, resettle_bytes, updMem_mem, wordPut, markWritten_bytes]

theorem putWord_fields (l : Nat) (data : List (Option Byte)) (s : State) : (putWord l data s).cores = s.cores ∧
    (putWord l data s).net = s.net ∧ (putWord l data s).blocked = s.blocked := by
  rw [putWord_eq]
  obtain ⟨cores, net, blocked⟩ := kvWriteSnoop_fields l data.length (resettle (wordsSettled l s) (updMem s (wordPut l data)))
  obtain ⟨cores', net', blocked', -⟩ := resettle_fields (wordsSettled l s) (updMem s (wordPut l data))
  exact ⟨cores.trans cores', net.trans net', blocked.trans blocked'⟩

theorem wordValid_putWord (l : Nat) (data : List (Option Byte)) (s : State) : wordValid (putWord l data s) (l / 128) = true := by
  obtain ⟨-, -, -, tarn, dram, fills⟩ := resettle_fields (wordsSettled l s) (updMem s (wordPut l data))
  have snooped := kvWriteSnoop_mem (s := resettle (wordsSettled l s) (updMem s (wordPut l data))) l data.length
  rw [putWord_eq, wordValid_congr (congrArg Mem.tarnValid snooped) (congrArg Mem.dramValid snooped) (congrArg Mem.fills snooped),
    wordValid_congr tarn dram fills]
  exact wordValid_markWritten rfl

theorem cutWords_one (h : 0 < data.length) (hw : l % 128 + data.length ≤ 128) : cutWords l data = [(l, data)] := by
  have hi : (l + data.length + 127) / 128 = l / 128 + 1 := by omega
  have start : max l (l / 128 * 128) = l := by omega
  have stop : min (l + data.length) (l / 128 * 128 + 128) - l = data.length := by omega
  simp [cutWords, span, hi, start, stop]

theorem fillWaitNow_free (h : fillBusy s l = false) : fillWaitNow l s = s := by simp [fillWaitNow, h]

/-- A write within one word of memory without errors is put, and counted (R186, R378). -/
theorem memStore_clean (hf : s.mem.flips = []) (hp : s.mem.poison = []) (hr : railDead s l = false) (hb : fillBusy s l = false)
    (h : 0 < data.length) (hw : l % 128 + data.length ≤ 128) (whole : Bool) :
    memStore l data whole s = (putWord l data (countMem l data.length s), none) := by
  obtain ⟨-, mem, -, -⟩ := countMem_fields l data.length s
  have put : storeWord l data whole (countMem l data.length s) = (putWord l data (countMem l data.length s), none) := by
    rw [storeWord, readWord_clean (by rw [mem]; exact hf) (by rw [mem]; exact hp)]
    exact ite_self _
  have free : fillWaitNow l (countMem l data.length s) = countMem l data.length s :=
    fillWaitNow_free (by rw [fillBusy, fillsOf, mem]; exact hb)
  have nonempty : data.isEmpty = false := List.isEmpty_eq_false_iff_exists_mem.2 (List.exists_mem_of_length_pos h)
  simp [memStore, nonempty, hr, cutWords_one h hw, storeCuts, free, put]

/-! ### At a column's port -/

/-- A write that is answered COMMIT: its bytes in memory, its word valid, one answer sent and the packet gone. -/
theorem writeNow_clean (hf : s.mem.flips = []) (hp : s.mem.poison = []) (hr : railDead s l = false) (hb : fillBusy s l = false) {p : Pkt}
    (h : 0 < p.data.length) (hw : l % 128 + p.data.length ≤ 128) :
    writeNow l p s = dropPkt p.id (answerPkt p .commit 0 (putWord l p.data (countMem l p.data.length s))) := by
  rw [writeNow, memStore_clean hf hp hr hb h hw]

/-- The commands of a write at a column's port that is not kept waiting (R186, R211). -/
theorem exec_write (ha : awake s = true) {i : Instr} {pid : Nat} {p : Pkt}
    (hi : (i = .memoryWriteArrive pid ∧ p.waitFill = false) ∨ (i = .fillEntryWait pid ∧ p.waitFill = true))
    (hc : atColumn s pid .write = some (l, p)) (hb : fillBusy s l = false) : exec i s = .next (ofPackage s (writeNow l p s)) := by
  rcases hi with ⟨rfl, hw⟩ | ⟨rfl, hw⟩
  · change live s (memWrite pid s) = _
    rw [live_awake ha, memWrite, hc]
    simp [hw, hb]
  · change live s (fillWaited pid s) = _
    rw [live_awake ha, fillWaited, hc]
    simp [hw, hb]

/-- A first write into a page whose die has no fill entry free begins to wait, and is counted (R211). -/
theorem exec_write_waits (ha : awake s = true) {pid : Nat} {p : Pkt} (hc : atColumn s pid .write = some (l, p)) (hw : p.waitFill = false)
    (hb : fillBusy s l = true) : exec (.memoryWriteArrive pid) s = .next (updClu (updNet s fun t => { t with
      pkts := mapIf (fun q => q.id == pid) (fun q => { q with waitFill := true }) t.pkts }) (locDc l) fun k =>
        { k with fillWait := k.fillWait + 1 }) := by
  change live s (memWrite pid s) = _
  rw [live_awake ha, memWrite, hc]
  simp only [hw, hb, if_true, Bool.false_eq_true, if_false]
  rw [ofPackage_eq] <;> rfl

theorem exec_fillWait_busy {pid : Nat} {p : Pkt} (hc : atColumn s pid .write = some (l, p)) (hb : fillBusy s l = true) :
    exec (.fillEntryWait pid) s = .next s := by
  change live s (fillWaited pid s) = _
  rw [fillWaited, hc]
  simp [hb, live_self]

theorem exec_read_clean (ha : awake s = true) {pid : Nat} {p : Pkt} (hc : atColumn s pid .readReq = some (l, p)) (hf : s.mem.flips = [])
    (hp : s.mem.poison = []) (hr : railDead s l = false) : exec (.memoryReadArrive pid [] false) s =
      .next (ofPackage s (dropPkt pid (respondPkt p .commit 0 (memBytes s.mem.bytes l p.len) (countMem l p.len s)))) := by
  change live s (memRead pid [] false s) = _
  rw [live_awake ha, memRead, hc]
  simp [forEach, memLoad_clean hf hp hr]

end Sys2Proof.Machine

namespace Sys2Proof.Machine

/-- Settles O26: a write through `writeNow_clean` and the frame of `putWord`, a read through `memLoad_clean`. -/
theorem memoryAccess : Obligations.MemoryAccess := by
  refine ⟨fun s i pid l p hi ha hc => ⟨?write, ?wait, ?again⟩, ?read⟩
  case write =>
    intro hb hf hp hr hlen hword
    obtain ⟨cores, mem, net, blocked⟩ := countMem_fields l p.data.length s
    obtain ⟨putCores, putNet, putBlocked⟩ := putWord_fields l p.data (countMem l p.data.length s)
    obtain ⟨sent, sentCores, sentMem⟩ := ofPackage_sendPkt (s := s) (putBlocked.trans blocked) p.id
      { blankPkt .answer p.dst p.src 0 p.part with req := p.id, status := .commit, errAddr := 0 }
    rw [putNet, net] at sent
    refine ⟨_, _, (exec_write ha hi hc hb).trans (by rw [writeNow_clean hf hp hr hb hlen hword]; rfl), fun x => ?bytes, ?valid,
      sentCores.trans (putCores.trans cores), sent, rfl, rfl, rfl, rfl⟩
    case bytes => rw [sentMem, putWord_bytes, mem, memByte_mask]
    case valid =>
      rw [wordValid_congr (congrArg Mem.tarnValid sentMem) (congrArg Mem.dramValid sentMem) (congrArg Mem.fills sentMem)]
      exact wordValid_putWord ..
  case wait =>
    intro hb hw
    rcases hi with ⟨rfl, -⟩ | ⟨-, hw'⟩
    · exact exec_write_waits ha hc hw hb
    · exact absurd hw' (by simp [hw])
  case again =>
    intro hb hw
    rcases hi with ⟨-, hw'⟩ | ⟨rfl, -⟩
    · exact absurd hw (by simp [hw'])
    · exact exec_fillWait_busy hc hb
  case read =>
    intro s pid l p ha hc hf hp hr
    obtain ⟨cores, mem, net, blocked⟩ := countMem_fields l p.len s
    obtain ⟨sent, sentCores, sentMem⟩ := ofPackage_sendPkt blocked pid
      { blankPkt .readResp p.dst p.src 1 p.part with
        req := p.id, status := .commit, errAddr := 0, data := (memBytes s.mem.bytes l p.len).map some }
    rw [net] at sent
    exact ⟨_, _, exec_read_clean ha hc hf hp hr, sentMem.trans mem, sentCores.trans cores, sent, rfl, rfl, rfl, rfl, rfl⟩

end Sys2Proof.Machine
end

section
/-! PROOFS. The memory code and the arrays' upkeep (R203 to R205, R210, R226, R262 to R270): a word's class by its errors, what a read does by that
class, and each upkeep command. The reports of the code leave the stacks' counts as they are. -/

namespace Sys2Proof.Machine
variable {s t : State}

@[simp] theorem forEach_stks {α : Type} {f : State → α → State} (h : ∀ s x, (f s x).stks = s.stks) (xs : List α) :
    (forEach xs f s).stks = s.stks := by
  induction xs generalizing s with
  | nil => rfl
  | cons x xs ih => exact ih.trans (h s x)

@[simp] theorem ite_stks (p : Prop) [Decidable p] (t u : State) : (if p then t else u).stks = if p then t.stks else u.stks := apply_ite ..

@[simp] theorem putLog_stks (code sev part : Nat) (data : List Byte) : (putLog code sev part data s).stks = s.stks := by simp [putLog]
@[simp] theorem queueEvent_stks (a code : Nat) (result : List Byte) : (queueEvent a code result s).stks = s.stks := by
  unfold queueEvent
  split <;> rfl

@[simp] theorem queueLead_stks (q code : Nat) (result : List Byte) : (queueLead q code result s).stks = s.stks := by
  unfold queueLead
  split <;> simp

@[simp] theorem raiseEvent_stks (code sev : Nat) (sc : Scope) (result : List Byte) : (raiseEvent code sev sc result s).stks = s.stks := by
  unfold raiseEvent
  split <;> simp

@[simp] theorem warnSevere_stks (src code b4 b5 b6 : Nat) : (warnSevere src code b4 b5 b6 s).stks = s.stks := raiseEvent_stks ..
@[simp] theorem warn_stks (src code b4 b5 b6 : Nat) : (warn src code b4 b5 b6 s).stks = s.stks := raiseEvent_stks ..
@[simp] theorem memErrorEvent_stks (addr unit mdie cls rq stk sev : Nat) :
    (memErrorEvent addr unit mdie cls rq stk sev s).stks = s.stks := raiseEvent_stks ..

@[simp] theorem countErase_stks (n : Nat) : (countErase n s).stks = s.stks := by simp [countErase]
@[simp] theorem program_stks (i : Nat) (bs : List Byte) : (program i bs s).stks = s.stks := rfl
@[simp] theorem areaWriteBy_stks (erase : Nat → State → State) (a : Area) (at_ : AreaAt) (fields : State → Nat → List Byte)
    (he : ∀ n s, (erase n s).stks = s.stks) : (areaWriteBy erase a at_ fields s).1.stks = s.stks := forEach_stks (fun s n => he n s) _

@[simp] theorem writeWear_stks : (writeWear s).stks = s.stks := by
  unfold writeWear
  exact (updDev_stks ..).trans (areaWriteBy_stks _ _ _ _ fun n s => countErase_stks n)

@[simp] theorem eraseSector_stks (n : Nat) : (eraseSector n s).stks = s.stks := by simp [eraseSector]
@[simp] theorem areaWrite_stks (a : Area) (at_ : AreaAt) (fields : Nat → List Byte) : (areaWrite a at_ fields s).1.stks = s.stks := by
  simp [areaWrite]
@[simp] theorem writeRepair_stks (es : List Nat) : (writeRepair es s).stks = s.stks := by
  unfold writeRepair
  exact (updDev_stks ..).trans (areaWrite_stks ..)

@[simp] theorem repairPut_stks (e : Nat) : (repairPut e s).stks = s.stks := by simp [repairPut]
@[simp] theorem repairAdd_stks (e : Nat) : (repairAdd e s).stks = s.stks := by simp [repairAdd]
@[simp] theorem repairRow_stks (l : Nat) : (repairRow l s).stks = s.stks := repairAdd_stks ..
@[simp] theorem repairGroup_stks (l g : Nat) : (repairGroup l g s).stks = s.stks := repairAdd_stks ..
@[simp] theorem repairFromLog_stks (stk l : Nat) (pos : List Nat) : (repairFromLog stk l pos s).stks = s.stks := by simp [repairFromLog]

/-- The symbol errors of a word and its poison decide its class. -/
theorem wordClass_eq {w : Nat} {errs : List (Nat × Nat)} (h : errs = smapGet [] s.mem.flips w) :
    wordClass s w = classify errs (s.mem.poison.contains w) := by rw [wordClass, h]

section
variable {errs : List (Nat × Nat)}

theorem classify_nil : classify [] false = .clean := rfl

/-- One or two symbol errors are corrected (R263). -/
theorem classify_corrected (h : errs.length = 1 ∨ errs.length = 2) : classify errs false = .corrected (errs.map (·.1)) := by
  rcases h with h | h <;> simp [classify, bit, h]

/-- Poison alone, or with one error, is read as poison (R263). -/
theorem classify_poisoned (h : errs.length ≤ 1) : classify errs true = .poisoned := by
  have few : ¬ 4 ≤ errs.length + 1 := by omega
  simp [classify, bit, h, few]

/-- Three errors, poison with two, and those beyond that the decoder locates nothing for, are uncorrectable (R263). -/
theorem classify_uncorrectable {poison : Bool} (h : (errs.length = 3 ∧ poison = false) ∨ (errs.length = 2 ∧ poison = true) ∨
    (4 ≤ errs.length + bit poison ∧ memLocate (errs ++ (if poison then [(69, 0xFFFF)] else [])) = none)) :
    classify errs poison = .uncorrectable := by
  rcases h with ⟨h, rfl⟩ | ⟨h, rfl⟩ | ⟨h, hl⟩
  · simp [classify, bit, h]
  · simp [classify, bit, h]
  · have several : errs.length + bit poison ≠ 0 := by omega
    rw [classify, if_neg several, if_pos h, hl]

end

/-! ### What a read of a word does, by its class -/

section
variable {w rq : Nat} {errs : List (Nat × Nat)}

theorem readWord_corrected {pos : List Nat} (hv : wordValid s w = true) (hc : wordClass s w = .corrected pos) :
    readWord w rq s = (updMem (noteCorrected w pos s) fun m => { m with writeBack := setIns m.writeBack w }, true) := by
  simp [readWord, hv, hc]

theorem readWord_poisoned (hv : wordValid s w = true) (hc : wordClass s w = .poisoned) : readWord w rq s = (notePoisoned w rq s, false) := by
  simp [readWord, hv, hc]

theorem readWord_uncorrectable (hv : wordValid s w = true) (hc : wordClass s w = .uncorrectable) :
    readWord w rq s = (noteUncorrectable w rq s, false) := by
  simp [readWord, hv, hc]

/-- The log of a stack keeps its counts (R272). -/
theorem logCorrected_ceTarn (stk addr unit mdie nsym pos0 pos1 k : Nat) :
    (getStk (logCorrected stk addr unit mdie nsym pos0 pos1 s) k).ceTarn = (getStk s k).ceTarn := by
  have kept : ∀ f : Stack → Stack, (∀ x, (f x).ceTarn = x.ceTarn) → (getStk (updStk s stk f) k).ceTarn = (getStk s k).ceTarn := fun f hf => by
    rw [getStk_updStk]
    split
    next h => rw [hf, h]
    · rfl
  unfold logCorrected
  dsimp only
  split
  · exact kept _ fun _ => rfl
  · split
    · exact kept _ fun _ => rfl
    · split
      · exact kept _ fun _ => rfl
      · rw [getStk, warnSevere_stks, updDev_stks]
        exact kept _ fun _ => rfl

/-- A correction in the Tarn counts once for its stack (R271). -/
theorem noteCorrected_ceTarn (h : locIsTarn (w * 128) = true) (pos : List Nat) :
    (getStk (noteCorrected w pos s) (dcDie (locDc (w * 128)))).ceTarn = (getStk s (dcDie (locDc (w * 128)))).ceTarn + 1 := by
  unfold noteCorrected
  simp only [h, if_true]
  rw [getStk, repairFromLog_stks, ← getStk, logCorrected_ceTarn, getStk_updStk_same]

theorem notePoisoned_poisonReads : (getStk (notePoisoned w rq s) (dcDie (locDc (w * 128)))).poisonReads =
    (getStk s (dcDie (locDc (w * 128)))).poisonReads + 1 := by
  unfold notePoisoned
  dsimp only
  rw [getStk, memErrorEvent_stks, updMem_stks, ← getStk, getStk_updStk_same]

theorem resettle_sound (h : s.stuckMem = []) (ws : List Nat) : resettle ws s = s := by simp [resettle, h]

theorem resettle_updMem (h : s.stuckMem = []) (ws : List Nat) (f : Mem → Mem) : resettle ws (updMem s f) = updMem s f :=
  resettle_sound (s := updMem s f) h ws

/-- An uncorrectable word is left poisoned, with its data symbols as read (R267). -/
theorem noteUncorrectable_fields (hs : s.stuckMem = []) (he : errs = smapGet [] s.mem.flips w) :
    w ∈ (noteUncorrectable w rq s).mem.poison ∧ (noteUncorrectable w rq s).mem.bytes = xorSymbols w errs s.mem.bytes ∧
      smapGet [] (noteUncorrectable w rq s).mem.flips w = [] := by
  have mem : (noteUncorrectable w rq s).mem = { s.mem with
      bytes := xorSymbols w errs s.mem.bytes, flips := smapErase s.mem.flips w
      poison := setIns s.mem.poison w, writeBack := setDel s.mem.writeBack w } := by
    unfold noteUncorrectable
    dsimp only
    rw [repairRow_mem, memErrorEvent_mem, he, resettle_sound]
    · split
      · rw [updStk_mem, updMem_mem]
      · rw [updMDie_mem, updMem_mem]
    · split
      · exact hs
      · exact hs
  rw [mem]
  exact ⟨(mem_setIns ..).2 (.inl rfl), rfl, by simp [smapGet_erase]⟩

end

/-! ### Upkeep -/

section
variable {k d : Nat}

theorem exec_fillComplete (ha : awake s = true) (hs : s.stuckMem = []) {page : Nat} (h : ∃ f ∈ s.mem.fills, f.page = page) :
    exec (.dramFillComplete page) s = .next (updMem s (fillDone page)) := by
  obtain ⟨f, hf, hp⟩ := h
  have used : (s.mem.fills.any fun f => f.page == page) = true := List.any_eq_true.2 ⟨f, hf, by simp [hp]⟩
  change live s (if s.mem.fills.any fun f => f.page == page then fillEnd page s else s) = _
  rw [live_awake ha, used, if_pos rfl, fillEnd, resettle_updMem hs, ofPackage_eq] <;> rfl

theorem exec_writeback (ha : awake s = true) (hs : s.stuckMem = []) {w : Nat} (hb : bankHeld s (w * 128) = false)
    (h : w ∈ s.mem.writeBack) : exec (.correctedWriteback w) s =
      .next (updMem s fun m => { m with flips := smapErase m.flips w, writeBack := setDel m.writeBack w }) := by
  change live s (if s.mem.writeBack.contains w && !bankHeld s (w * 128) then _ else s) = _
  rw [live_awake ha, List.contains_iff_mem.2 h, hb, Bool.not_false, Bool.and_self, if_pos rfl, resettle_updMem hs, ofPackage_eq] <;> rfl

theorem exec_writeback_dropped {w : Nat} (h : w ∉ s.mem.writeBack) : exec (.correctedWriteback w) s = .next s := by
  change live s (if s.mem.writeBack.contains w && !bankHeld s (w * 128) then _ else s) = _
  simp [h, live_self]

theorem exec_scrub_off {up : List (Nat × Nat × Bool)} (h : (getStk s k).scrubEn = false ∨ memPowered s k = false) :
    exec (.patrolScrubRead k d up) s = .next s := by
  change live s (scrubRead k d up s) = _
  have off : scrubRead k d up s = s := by
    rcases h with h | h <;> simp [scrubRead, h]
  rw [off, live_self]

/-- Nothing keeps the scrub of a fitted die in a powered stack from running, where it is on. -/
theorem scrub_runs (hk : k < 6) (he : (getStk s k).scrubEn = true) (hp : memPowered s k = true) (hd : d < 4 → d < s.mdies) :
    (!(getStk s k).scrubEn || !memPowered s k || decide (6 ≤ k) || (decide (d < 4) && decide (s.mdies ≤ d))) = false := by
  simp only [he, hp, Bool.not_true, Bool.false_or, Bool.or_eq_false_iff, Bool.and_eq_false_imp, decide_eq_false_iff_not, decide_eq_true_eq]
  omega

/-- The scrub reads the word that comes next in address order (R270). -/
theorem scrubRead_next {up : List (Nat × Nat × Bool)} {a l : Nat} (hk : k < 6) (he : (getStk s k).scrubEn = true)
    (hp : memPowered s k = true) (hd : d < 4 → d < s.mdies)
    (hn : nextWord (if d < 4 then 32 else 4) (scrubAt s k d) (scrubGroups s k d) = some a) (hl : paLoc s (a * 128) = some l)
    (hb : bankHeld s l = false) :
    scrubRead k d up s = scrubTo k d (a + 1) (readWord (l / 128) 9 (strike (l / 128) up s)).1 := by
  simp only [scrubRead, scrub_runs hk he hp hd, hn, hl, hb, Bool.false_eq_true, if_false]

/-- The scrub ends its pass where no valid word is left (R270). -/
theorem scrubRead_end {up : List (Nat × Nat × Bool)} (hk : k < 6) (he : (getStk s k).scrubEn = true) (hp : memPowered s k = true)
    (hd : d < 4 → d < s.mdies) (hn : nextWord (if d < 4 then 32 else 4) (scrubAt s k d) (scrubGroups s k d) = none) :
    scrubRead k d up s = scrubPassed k d s := by
  simp only [scrubRead, scrub_runs hk he hp hd, hn, Bool.false_eq_true, if_false]

theorem ofPackage_scrubPassed : ofPackage s (scrubPassed k d s) = scrubPassed k d s := by
  unfold scrubPassed
  split
  · rw [ofPackage_eq] <;> rfl
  · rw [ofPackage_eq] <;> rfl

/-- Doubled refresh ends where every reading is at or below 83.0 °C, 664 eighths (R204). -/
theorem exec_hotClear (ha : awake s = true) (hk : k < 6) (hd : d < s.mdies) (h : ∀ x ∈ dieReadings s k d, x ≤ 664) :
    exec (.dieRefHotClear k d) s = .next (updMDie s k d fun x => { x with hot := false, src := dieModelled s k d }) := by
  change live s (dieRefCool k d s) = _
  have cool : (dieReadings s k d).all (fun t => decide (t ≤ 664)) = true := by simpa using h
  rw [live_awake ha, dieRefCool, if_pos ⟨hk, hd, cool⟩, ofPackage_eq] <;> rfl

theorem exec_hotClear_hot (h : ∃ x ∈ dieReadings s k d, 664 < x) : exec (.dieRefHotClear k d) s = .next s := by
  change live s (dieRefCool k d s) = _
  obtain ⟨x, hx, hot⟩ := h
  have warm : ¬ (dieReadings s k d).all (fun t => decide (t ≤ 664)) = true := fun all =>
    absurd (of_decide_eq_true (List.all_eq_true.1 all x hx)) (by omega)
  rw [dieRefCool, if_neg fun c => warm c.2.2, live_self]

end

/-! ### Refresh -/

section
variable {k d col b : Nat} {x : SprStep}

/-- A refresh of a bank that no step holds changes nothing: it is done at once (R203). -/
theorem exec_refresh_free (h : ((getClu s (k * 256 + col)).spr.running.find? fun t => t.mdie == d && t.banks.contains b) = none) :
    exec (.refreshDue k d col b) s = .next s := by
  change live s (refresh k d col b s) = _
  rw [refresh]
  simp only [h, live_self]

theorem getMDie_updMDie_same (f : MDie → MDie) : getMDie (updMDie s k d f) k d = f (getMDie s k d) := by
  simp [getMDie, updMDie]

theorem getClu_updMDie (f : MDie → MDie) (c : Nat) : getClu (updMDie s k d f) c = getClu s c := rfl

/-- A refresh that falls due on a bank that a step holds (R205, R226): the step's count, its fifth, and what they leave. -/
theorem refresh_held {n : Nat} (h : (getClu s (k * 256 + col)).spr.running.find? (fun t => t.mdie == d && t.banks.contains b) = some x)
    (hn : n = smapGet 0 x.dues b + 1) : ofPackage s (refresh k d col b s) = refresh k d col b s ∧
      (getClu (refresh k d col b s) (k * 256 + col)).spr.running = mapIf (fun y => y.mdie == d)
        (fun _ => { x with dues := smapSet 0 x.dues b n, suspended := x.suspended || n == 5 }) (getClu s (k * 256 + col)).spr.running ∧
      (n = 5 ∧ x.suspended = false → (getMDie (refresh k d col b s) k d).preempt = (getMDie s k d).preempt + 1) ∧
      (n ≠ 5 ∨ x.suspended = true → (refresh k d col b s).stks = s.stks) ∧ (refresh k d col b s).mem = s.mem := by
  have late : (x.suspended || (n == 5 && !x.suspended)) = (x.suspended || n == 5) := by cases x.suspended <;> simp
  unfold refresh
  simp only [h, ← hn, late]
  split
  next stop =>
    obtain ⟨five, runs⟩ : n = 5 ∧ x.suspended = false := by simpa using stop
    refine ⟨by rw [ofPackage_eq] <;> rfl, ?_, fun _ => ?_, fun other => ?_, by simp⟩
    · rw [getClu_updMDie, getClu_updClu_same]
    · rw [getMDie_updMDie_same]
      rfl
    · exact absurd other (by simp [five, runs])
  next go =>
    refine ⟨by rw [ofPackage_eq] <;> rfl, by simp, fun ⟨five, runs⟩ => absurd (by simp [five, runs]) go, fun _ => rfl, rfl⟩

end

end Sys2Proof.Machine

namespace Sys2Proof.Machine

/-- Settles O27: the decoder by the class of a word's errors (`classify`), the upkeep command by command. -/
theorem memoryIntegrity : Obligations.MemoryIntegrity := by
  refine ⟨fun s w rq hv errs he => ⟨?clean, ?corrected, ?uncorrectable, ?poisoned⟩,
    fun s ha hs => ⟨?fill, ?writeback, ?scrub, ?scrubOff, ?free, ?held, ?cool⟩⟩
  case clean =>
    intro h hp
    have found : wordClass s w = .clean := by rw [wordClass_eq he, h, hp]; rfl
    simp [readWord, hv, found]
  case corrected =>
    intro h hp
    have found : wordClass s w = .corrected (errs.map (·.1)) := by rw [wordClass_eq he, hp, classify_corrected h]
    rw [readWord_corrected hv found]
    exact ⟨rfl, (mem_setIns ..).2 (.inl rfl), (congrArg Mem.bytes (noteCorrected_mem w (errs.map (·.1))) :),
      fun tarn => noteCorrected_ceTarn tarn _⟩
  case uncorrectable =>
    intro hs h
    rw [readWord_uncorrectable hv (by rw [wordClass_eq he, classify_uncorrectable h])]
    exact ⟨rfl, noteUncorrectable_fields hs he⟩
  case poisoned =>
    intro h hp
    rw [readWord_poisoned hv (by rw [wordClass_eq he, hp, classify_poisoned h])]
    exact ⟨rfl, notePoisoned_bytes .., notePoisoned_poisonReads⟩
  case fill => exact fun page h => exec_fillComplete ha hs h
  case writeback => exact fun w hb => ⟨exec_writeback ha hs hb, exec_writeback_dropped⟩
  case scrub =>
    intro k d up hk he hp hd o ho
    refine ⟨fun a l hn hl hb => ?_, fun hn => ?_⟩
    · change live s (scrubRead k d up s) = _
      rw [live_awake ha, scrubRead_next hk he hp hd (ho.symm.trans hn) hl hb]
    · change live s (scrubRead k d up s) = _
      rw [live_awake ha, scrubRead_end hk he hp hd (ho.symm.trans hn), ofPackage_scrubPassed]
  case scrubOff => exact fun k d up h => exec_scrub_off h
  case free => exact fun k d col b h => exec_refresh_free h
  case held =>
    intro k d col b x n h hn
    obtain ⟨package, running, fifth, other, mem⟩ := refresh_held h hn
    refine ⟨refresh k d col b s, ?_, running, fifth, other, mem⟩
    change live s (refresh k d col b s) = _
    rw [live_awake ha, package]
  case cool => exact fun k d hk hd => ⟨exec_hotClear ha hk hd, exec_hotClear_hot⟩

end Sys2Proof.Machine
end

section
/-! PROOFS. The cluster DMA engine (R199 to R202, R225, R311): its start, its stop, the flag that it waits for and its iterations. -/

namespace Sys2Proof.Machine
variable {s t x : State} {dc : Nat} {d : DmaDesc}

/-! ### Reports and signals wait for nothing -/

theorem putLog_blocked (code sev part : Nat) (data : List Byte) (s : State) : (putLog code sev part data s).blocked = s.blocked := by
  unfold putLog
  dsimp only
  split
  · split
    · rfl
    · rfl
  · rfl

theorem queueEvent_blocked (a code : Nat) (result : List Byte) (s : State) : (queueEvent a code result s).blocked = s.blocked := by
  unfold queueEvent
  split
  · rfl
  · rfl

theorem queueLead_blocked (q code : Nat) (result : List Byte) (s : State) : (queueLead q code result s).blocked = s.blocked := by
  unfold queueLead
  split
  · exact queueEvent_blocked ..
  · rfl

theorem raiseEvent_blocked (code sev : Nat) (sc : Scope) (result : List Byte) (s : State) :
    (raiseEvent code sev sc result s).blocked = s.blocked := by
  cases sc with
  | device => exact (queueEvent_blocked ..).trans (putLog_blocked ..)
  | part q => exact (queueLead_blocked ..).trans (putLog_blocked ..)
  | both q => exact (queueEvent_blocked ..).trans ((queueLead_blocked ..).trans (putLog_blocked ..))

theorem reportFrom_blocked (src : Endpoint) (code sev : Nat) (sc : Scope) (result : List Byte) (s : State) :
    (reportFrom src code sev sc result s).blocked = s.blocked := by
  unfold reportFrom
  dsimp only
  split
  · exact (raiseEvent_blocked ..).trans (crossWay_blocked ..)
  · exact crossWay_blocked ..

theorem dmaError_blocked (dc code : Nat) (s : State) : (dmaError dc code s).blocked = s.blocked := reportFrom_blocked ..

theorem streamEvent_blocked (c code opcode : Nat) (s : State) : (streamEvent c code opcode s).blocked = s.blocked := by
  unfold streamEvent
  dsimp only
  split
  · exact reportFrom_blocked ..
  · rfl

theorem incFlag_blocked (c f srcOp : Nat) (s : State) : (incFlag c f srcOp s).blocked = s.blocked := by
  unfold incFlag
  dsimp only
  split
  · exact streamEvent_blocked ..
  · rfl

theorem dmaSignal_blocked (dc : Nat) (d : DmaDesc) (s : State) : (dmaSignal dc d s).blocked = s.blocked := by
  unfold dmaSignal
  dsimp only
  split
  · exact incFlag_blocked ..
  · rfl

/-! ### What the engine waits for -/

/-- An engine that nothing holds up does what it does. -/
theorem dmaWaits_open (h : t.blocked = none) : dmaWaits dc s t = t := by simp [dmaWaits, h]

/-- An engine that meets a bank that a spring step holds notes the bank, and has done nothing else (R225). -/
theorem dmaWaits_bank (hs : s.blocked = none) {l : Nat} {r : Endpoint} (h : t.blocked = some (.bank l r)) :
    dmaWaits dc s t = updDma s dc fun m => { m with waits := some l } := by simp [dmaWaits, h, hs]

theorem dmaWaits_other {w : Wait} (h : t.blocked = some w) (hw : ∀ l r, w ≠ .bank l r) : dmaWaits dc s t = t := by
  unfold dmaWaits
  rw [h]
  cases w with
  | bank l r => exact absurd rfl (hw l r)
  | _ => rfl

theorem noteWait_other {w : Wait} (hw : ∀ l r, w ≠ .bank l r) (s : State) : noteWait (some w) s = s := by
  cases w with
  | bank l r => exact absurd rfl (hw l r)
  | _ => rfl

/-! ### Start -/

/-- A chain starts only where the engine rests and its partition is RUNNING (R199, R311). -/
theorem dmaStart_kept (h : (getDma s dc).st = .running ∨ (getDma s dc).st = .waiting ∨ partRunning s dc = false) : dmaStart dc s = s := by
  rcases h with h | h | h <;> simp [dmaStart, h]

theorem dmaStart_loads (h : (getDma s dc).st = .idle ∨ (getDma s dc).st = .ended ∨ (getDma s dc).st = .error)
    (hp : partRunning s dc = true) : dmaStart dc s = dmaLoad dc (getDma s dc).head s := by
  rcases h with h | h | h <;> simp [dmaStart, h, hp]

section
variable {a : Nat} {ps : List (Nat × Nat)} {y : State} {bs : List Byte}
  (hx : xlRange (.cluster dc) (dcPart s dc) false false (cutPages a 64)
    (updDma s dc fun m => { m with descAddr := a, st := .running, cur := none, waits := none }) = (x, .ok ps))
  (ho : ownSide x dc ps = some .tarn) (hl : loadPieces 4 ps x = (y, none, bs))
include hx ho hl

/-- A descriptor that keeps R200 is begun. -/
theorem dmaLoad_begins (hc : dmaCheck (dmaParse bs) = none) : dmaLoad dc a s = dmaBegin dc (dmaParse bs) 0 y := by
  simp [dmaLoad, hx, ho, hl, hc]

/-- A descriptor that breaks R200 is an error. -/
theorem dmaLoad_breaks {code : Nat} (hc : dmaCheck (dmaParse bs) = some code) : dmaLoad dc a s = dmaError dc code y := by
  simp [dmaLoad, hx, ho, hl, hc]

end

/-! ### Stop, flag and iteration -/

theorem exec_dmaStart (ha : awake s = true) (hw : cluWritable s dc = true) :
    exec (.cluDmaStart dc) s = .next (ofPackage s (dmaStart dc s)) := by
  change live s (if cluWritable s dc then dmaStart dc s else s) = _
  rw [live_awake ha, hw, if_pos rfl]

theorem exec_dmaStop (ha : awake s = true) (hw : cluWritable s dc = true) (n : Nat) :
    exec (.cluDmaStop dc n) s = .next (ofPackage s (dmaWaits dc s (dmaStop dc n s))) := by
  change live s (if cluWritable s dc then dmaWaits dc s (dmaStop dc n s) else s) = _
  rw [live_awake ha, hw, if_pos rfl]

theorem exec_dmaTake (ha : awake s = true) : exec (.dmaFlagWaitSatisfied dc) s = .next (ofPackage s (dmaTake dc s)) := live_awake ha _

theorem exec_dmaIterate (ha : awake s = true) :
    exec (.dmaIterationComplete dc) s = .next (ofPackage s (dmaWaits dc s (dmaIterate dc s))) := live_awake ha _

theorem ofPackage_updDma (f : Dma → Dma) : ofPackage s (updDma s dc f) = updDma s dc f := by rw [ofPackage_eq] <;> rfl

theorem ofPackage_self (s : State) : ofPackage s s = s := by rw [ofPackage_eq] <;> rfl

theorem dmaStop_waiting (h : (getDma s dc).st = .waiting) (n : Nat) : dmaStop dc n s = dmaEnded dc s := by simp [dmaStop, h]

theorem dmaStop_running (h : (getDma s dc).st = .running) (hd : (getDma s dc).cur = some d) {n k : Nat} (hk : k = min d.rows (max 1 n))
    (hc : dmaCopy dc d (getDma s dc).iter k s = (x, 0)) : dmaStop dc n s = dmaEnded dc (if k = d.rows then dmaSignal dc d x else x) := by
  simp [dmaStop, h, hd, ← hk, hc]

section
variable (h : (getDma s dc).st = .waiting) (hd : (getDma s dc).cur = some d) {c : Nat} (hc : c = dc * 1024 + d.wcore)
include h hd hc

theorem dmaTake_takes (hf : d.wcount ≤ (smapGet 0 (getCore s c).flags d.wflag).toNat) :
    dmaTake dc s = updDma (updCore s c fun k =>
      { k with flags := smapSet 0 k.flags d.wflag (smapGet 0 k.flags d.wflag - BitVec.ofNat 16 d.wcount) }) dc fun m =>
        { m with taken := true, st := .running } := by
  subst hc
  simp only [dmaTake, h, hd, hf, if_true]
  rfl

theorem dmaTake_waits (hf : (smapGet 0 (getCore s c).flags d.wflag).toNat < d.wcount) : dmaTake dc s = s := by
  subst hc
  simp only [dmaTake, h, hd]
  exact if_neg (Nat.not_le.2 hf)

end

section
variable {e : Nat} (h : (getDma s dc).st = .running) (hd : (getDma s dc).cur = some d)
  (hc : dmaCopy dc d (getDma s dc).iter d.rows s = (x, e))
include h hd hc

theorem dmaIterate_blocked {w : Wait} (hb : x.blocked = some w) : dmaIterate dc s = x := by simp [dmaIterate, h, hd, hc, hb]

theorem dmaIterate_fails (he : e ≠ 0) (hb : x.blocked = none) : dmaIterate dc s = dmaError dc e x := by
  simp [dmaIterate, h, hd, hc, hb, he]

theorem dmaIterate_goes (he : e = 0) (hb : x.blocked = none) : dmaIterate dc s =
    if (getDma s dc).iter + 1 < d.rep then dmaBegin dc d ((getDma s dc).iter + 1) (dmaSignal dc d x)
    else if d.last then dmaEnded dc (dmaSignal dc d x) else dmaLoad dc d.next (dmaSignal dc d x) := by
  simp [dmaIterate, h, hd, hc, hb, he]

end

end Sys2Proof.Machine

namespace Sys2Proof.Machine

/-- Settles O30: the start through the load of the descriptor, the stop, the flag's wait and an iteration by the outcome of its copy. -/
theorem dmaEngine : Obligations.DmaEngine := by
  refine ⟨fun s dc ha hw => ⟨?start, ?kept⟩, fun s dc ha hb => ⟨?stopWaiting, ?stopRunning, ?flag, ?iterate⟩⟩
  case start =>
    rintro h hp a u x ps y bs rfl rfl hx ho hl
    refine ⟨fun hc => ?_, fun code hc => ?_⟩
    · rw [exec_dmaStart ha hw, dmaStart_loads h hp, dmaLoad_begins hx ho hl hc]
      rfl
    · rw [exec_dmaStart ha hw, dmaStart_loads h hp, dmaLoad_breaks hx ho hl hc]
  case kept =>
    intro h
    rw [exec_dmaStart ha hw, dmaStart_kept h, ofPackage_self]
  case stopWaiting =>
    intro hw h n
    rw [exec_dmaStop ha hw, dmaStop_waiting h, dmaWaits_open (t := dmaEnded dc s) hb]
    exact congrArg _ (ofPackage_updDma _)
  case stopRunning =>
    intro hw h d n k x hd hk hc hx
    have unblocked : (dmaEnded dc (if k = d.rows then dmaSignal dc d x else x)).blocked = none := by
      change (if k = d.rows then dmaSignal dc d x else x).blocked = none
      split
      · exact (dmaSignal_blocked ..).trans hx
      · exact hx
    rw [exec_dmaStop ha hw, dmaStop_running h hd hk hc, dmaWaits_open unblocked]
  case flag =>
    intro h d c hd hc
    refine ⟨fun hf => ?_, fun hf => ?_⟩
    · rw [exec_dmaTake ha, dmaTake_takes h hd hc hf, ofPackage_eq] <;> rfl
    · rw [exec_dmaTake ha, dmaTake_waits h hd hc hf, ofPackage_self]
  case iterate =>
    intro h d x e hd hc
    refine ⟨fun he hx => ?_, fun l r hx => ?_, fun w hx hw => ?_, fun he hx => ?_⟩
    · rw [exec_dmaIterate ha, dmaIterate_fails h hd hc he hx, dmaWaits_open ((dmaError_blocked ..).trans hx)]
    · rw [exec_dmaIterate ha, dmaIterate_blocked h hd hc hx, dmaWaits_bank hb hx, ofPackage_updDma]
    · rw [exec_dmaIterate ha, dmaIterate_blocked h hd hc hx, dmaWaits_other hx hw, ofPackage_held hx hb, noteWait_other hw]
    · rw [exec_dmaIterate ha, dmaIterate_goes h hd hc he hx]

end Sys2Proof.Machine
end

section
/-! PROOFS. What leaves the spring queues as they are: events and their way over the fabric, the memory's stores with all that their errors report, and
writes into a scratchpad. -/

namespace Sys2Proof.Machine
variable {s : State} {k : Nat}

/-! ### Ops -/

@[simp] theorem getSpr_updClu (dc : Nat) {f : Cluster → Cluster} (h : ∀ x, (f x).spr = x.spr) : getSpr (updClu s dc f) k = getSpr s k := by
  unfold getSpr
  rw [getClu_updClu]
  split
  next e => rw [h, e]
  · rfl

@[simp] theorem getSpr_updSpr_same (f : SprQ → SprQ) : getSpr (updSpr s k f) k = f (getSpr s k) := by
  unfold getSpr updSpr
  rw [getClu_updClu_same]

@[simp] theorem getSpr_updSeq (dc n : Nat) (f : Seqr → Seqr) : getSpr (updSeq s dc n f) k = getSpr s k := getSpr_updClu dc fun _ => rfl

@[simp] theorem getSpr_updCore (c : Nat) (f : Core → Core) : getSpr (updCore s c f) k = getSpr s k := rfl
@[simp] theorem getSpr_updStk (i : Nat) (f : Stack → Stack) : getSpr (updStk s i f) k = getSpr s k := rfl
@[simp] theorem getSpr_updMDie (i d : Nat) (f : MDie → MDie) : getSpr (updMDie s i d f) k = getSpr s k := rfl
@[simp] theorem getSpr_updDev (f : Dev → Dev) : getSpr (updDev s f) k = getSpr s k := rfl
@[simp] theorem getSpr_updNet (f : Net → Net) : getSpr (updNet s f) k = getSpr s k := rfl
@[simp] theorem getSpr_updMem (f : Mem → Mem) : getSpr (updMem s f) k = getSpr s k := rfl
@[simp] theorem getSpr_block (w : Wait) : getSpr (block w s) k = getSpr s k := rfl

@[simp] theorem getSpr_ite (p : Prop) [Decidable p] (t u : State) :
    getSpr (if p then t else u) k = if p then getSpr t k else getSpr u k := apply_ite (getSpr · k) ..

@[simp] theorem getSpr_forEach {α : Type} {f : State → α → State} (h : ∀ s x, getSpr (f s x) k = getSpr s k) (xs : List α) :
    getSpr (forEach xs f s) k = getSpr s k := by
  induction xs generalizing s with
  | nil => rfl
  | cons x xs ih => exact ih.trans (h s x)

@[simp] theorem getSpr_countAct (dc kind n : Nat) : getSpr (countAct dc kind n s) k = getSpr s k := by simp [countAct, getSpr, getClu, apply_ite]

/-! ### Events -/

@[simp] theorem getSpr_passOut (p : Pkt) : getSpr (passOut p s) k = getSpr s k := by
  unfold passOut
  split
  · rfl
  · rfl

/-- A retry is counted at its cluster beside the spring queue (R178). -/
@[simp] theorem getSpr_countRetry (h : Hop) : getSpr (countRetry h s) k = getSpr s k := by
  cases h with
  | leaf dc p => simp [countRetry]
  | column dc => simp [countRetry]
  | spine d p => rfl
  | io d p => rfl

@[simp] theorem getSpr_countPlane (n i : Nat) : getSpr (countPlane n i s) k = getSpr s k := by simp [countPlane]

@[simp] theorem getSpr_crossWay (kind : PktKind) (src dst : Endpoint) (n : Nat) : getSpr (crossWay kind src dst n s).1 k = getSpr s k := by
  unfold crossWay
  dsimp only
  split
  · simp
  · simp

@[simp] theorem getSpr_putLog (code sev part : Nat) (data : List Byte) : getSpr (putLog code sev part data s) k = getSpr s k := by simp [putLog]

@[simp] theorem getSpr_queueEvent (a code : Nat) (result : List Byte) : getSpr (queueEvent a code result s) k = getSpr s k := by
  unfold queueEvent
  split
  · rfl
  · rfl

@[simp] theorem getSpr_queueLead (q code : Nat) (result : List Byte) : getSpr (queueLead q code result s) k = getSpr s k := by
  unfold queueLead
  split
  · exact getSpr_queueEvent ..
  · rfl

@[simp] theorem getSpr_raiseEvent (code sev : Nat) (sc : Scope) (result : List Byte) :
    getSpr (raiseEvent code sev sc result s) k = getSpr s k := by
  cases sc with
  | device => simp [raiseEvent]
  | part q => simp [raiseEvent]
  | both q => simp [raiseEvent]

@[simp] theorem getSpr_reportFrom (src : Endpoint) (code sev : Nat) (sc : Scope) (result : List Byte) :
    getSpr (reportFrom src code sev sc result s) k = getSpr s k := by simp [reportFrom]

@[simp] theorem getSpr_warn (src code b4 b5 b6 : Nat) : getSpr (warn src code b4 b5 b6 s) k = getSpr s k := getSpr_raiseEvent ..
@[simp] theorem getSpr_warnSevere (src code b4 b5 b6 : Nat) : getSpr (warnSevere src code b4 b5 b6 s) k = getSpr s k := getSpr_raiseEvent ..

@[simp] theorem getSpr_coreEvent (c code opcode : Nat) : getSpr (coreEvent c code opcode s) k = getSpr s k := by simp [coreEvent, streamEvent]
@[simp] theorem getSpr_incFlag (c f srcOp : Nat) : getSpr (incFlag c f srcOp s) k = getSpr s k := by simp [incFlag]

/-! ### Repairs asked for (R275, R276) -/

@[simp] theorem getSpr_countErase (n : Nat) : getSpr (countErase n s) k = getSpr s k := by simp [countErase]

@[simp] theorem getSpr_areaWriteBy {erase : Nat → State → State} (he : ∀ n s, getSpr (erase n s) k = getSpr s k) (a : Area) (at_ : AreaAt)
    (fields : State → Nat → List Byte) : getSpr (areaWriteBy erase a at_ fields s).1 k = getSpr s k := getSpr_forEach (fun s n => he n s) _

@[simp] theorem getSpr_writeWear : getSpr (writeWear s) k = getSpr s k := by
  unfold writeWear
  exact (getSpr_updDev _).trans (getSpr_areaWriteBy (fun n s => getSpr_countErase n) _ _ _)

@[simp] theorem getSpr_eraseSector (n : Nat) : getSpr (eraseSector n s) k = getSpr s k := by simp [eraseSector]

@[simp] theorem getSpr_writeRepair (es : List Nat) : getSpr (writeRepair es s) k = getSpr s k := by
  unfold writeRepair areaWrite
  exact (getSpr_updDev _).trans (getSpr_areaWriteBy (fun n s => getSpr_eraseSector n) _ _ _)

@[simp] theorem getSpr_repairAdd (e : Nat) : getSpr (repairAdd e s) k = getSpr s k := by simp [repairAdd, repairPut]

/-! ### Memory words (R263 to R273) -/

@[simp] theorem getSpr_logCorrected (stk addr unit mdie nsym pos0 pos1 : Nat) :
    getSpr (logCorrected stk addr unit mdie nsym pos0 pos1 s) k = getSpr s k := by simp [logCorrected]

@[simp] theorem getSpr_noteCorrected (w : Nat) (pos : List Nat) : getSpr (noteCorrected w pos s) k = getSpr s k := by
  simp [noteCorrected, repairFromLog, repairRow, repairGroup]

@[simp] theorem getSpr_memErrorEvent (addr unit mdie cls rq stk sev : Nat) :
    getSpr (memErrorEvent addr unit mdie cls rq stk sev s) k = getSpr s k := getSpr_raiseEvent ..

@[simp] theorem getSpr_resettle (ws : List Nat) : getSpr (resettle ws s) k = getSpr s k := by simp [resettle]

@[simp] theorem getSpr_readWord (w rq : Nat) : getSpr (readWord w rq s).1 k = getSpr s k := by
  unfold readWord
  split
  · rfl
  · cases wordClass s w with
    | clean => rfl
    | corrected pos => simp
    | poisoned => simp [notePoisoned]
    | uncorrectable => simp [noteUncorrectable, repairRow]
    | miscorrected fix => simp [rebase]

/-! ### Stores (R209 to R211, R257) -/

/-- A wait for a fill entry is counted at its cluster beside the spring queue (R211). -/
@[simp] theorem getSpr_fillWaitNow (l : Nat) : getSpr (fillWaitNow l s) k = getSpr s k := by
  unfold fillWaitNow
  split
  · split
    · simp [fillEnd]
    · rfl
  · rfl

/-- A walker drops translations alone (R257). -/
@[simp] theorem getSpr_kvWriteSnoop (l n : Nat) : getSpr (kvWriteSnoop l n s) k = getSpr s k := by
  unfold kvWriteSnoop
  dsimp only
  split
  · rfl
  · split
    · simp
    · rfl

@[simp] theorem getSpr_putWord (l : Nat) (data : List (Option Byte)) : getSpr (putWord l data s) k = getSpr s k := by simp [putWord]

@[simp] theorem getSpr_storeWord (l : Nat) (data : List (Option Byte)) (whole : Bool) : getSpr (storeWord l data whole s).1 k = getSpr s k := by
  simp [storeWord]

@[simp] theorem getSpr_storeCuts (whole : Bool) (cs : List (Nat × List (Option Byte))) : getSpr (storeCuts whole cs s).1 k = getSpr s k := by
  induction cs generalizing s with
  | nil => rfl
  | cons c cs ih =>
    unfold storeCuts
    dsimp only
    split
    · simp [ih]
    · simp

@[simp] theorem getSpr_memStore (l : Nat) (data : List (Option Byte)) (whole : Bool) : getSpr (memStore l data whole s).1 k = getSpr s k := by
  simp [memStore, countMem]

/-! ### Scratchpads (R139, R264, R268) -/

@[simp] theorem getSpr_restick (c : Nat) (ws : List Nat) : getSpr (restick c ws s) k = getSpr s k := by simp [restick]

@[simp] theorem getSpr_spmReadWord (c w rq : Nat) : getSpr (spmReadWord c w rq s).1 k = getSpr s k := by
  unfold spmReadWord
  dsimp only
  split
  next => rfl
  next => simp [repairCoreCol]
  next => simp [repairCoreCol]
  next => simp [repairCoreCol]

@[simp] theorem getSpr_spmReadWords (c rq : Nat) (ws : List Nat) : getSpr (spmReadWords c rq ws s).1 k = getSpr s k := by
  induction ws generalizing s with
  | nil => rfl
  | cons w ws ih => simp [spmReadWords, ih]

@[simp] theorem getSpr_spmWrite (c off : Nat) (data : List (Option Byte)) : getSpr (spmWrite c off data s).1 k = getSpr s k := by
  unfold spmWrite
  dsimp only
  split
  · rfl
  · split
    · simp
    · simp

@[simp] theorem getSpr_outerPut (c off : Nat) (data : List (Option Byte)) : getSpr (outerPut c off data s).1 k = getSpr s k := by
  unfold outerPut
  split
  · exact getSpr_block _
  · simp

end Sys2Proof.Machine
end

section
/-! PROOFS. The spring queue of a column (R214, R219 to R226, R237, R238): acceptance and refusal, permits, the ends of steps and of sequences,
Meridian's submission and aborts. -/

namespace Sys2Proof.Machine
variable {s x : State} {dc i d id st e : Nat} {w : SprWait} {t : SprStep} {q q1 : SprSeq}

theorem ofPackage_updSpr (f : SprQ → SprQ) : ofPackage s (updSpr s dc f) = updSpr s dc f := by rw [ofPackage_eq] <;> rfl

/-! ### Acceptance (R219, R222, R419) -/

theorem exec_sprAccept (ha : awake s = true) (i : Nat) : exec (.springQueueAccept dc i) s = .next (ofPackage s (sprAccept dc i s)) :=
  live_awake ha _

/-- The status with which a submission whose turn has come is refused, if it is. -/
def sprRefusal (s : State) (dc : Nat) (w : SprWait) : Option Nat :=
  if descRefused w.desc w.core.isNone then some ssDesc
  else if !(getSpr s dc).en || s.dev.st == .salvage || inSalvage s dc || inDrain s dc then some ssUnavailable else none

theorem sprRefusal_none (hf : descRefused w.desc w.core.isNone = false) (he : (getSpr s dc).en = true) (hs : s.dev.st ≠ .salvage)
    (hp : inSalvage s dc = false) (hd : inDrain s dc = false) : sprRefusal s dc w = none := by
  simp [sprRefusal, hf, he, hs, hp, hd]

theorem sprRefusal_desc (hf : descRefused w.desc w.core.isNone = true) : sprRefusal s dc w = some ssDesc := if_pos hf

theorem sprRefusal_unavailable (hf : descRefused w.desc w.core.isNone = false)
    (h : (getSpr s dc).en = false ∨ s.dev.st = .salvage ∨ inSalvage s dc = true ∨ inDrain s dc = true) :
    sprRefusal s dc w = some ssUnavailable := by
  unfold sprRefusal
  rw [if_neg (by simp [hf]), if_pos]
  rcases h with h | h | h | h <;> simp [h]

/-- The state once a submission has left those that wait, and its core's SPQ may complete (R122). -/
def sprTaken (dc i : Nat) (w : SprWait) (s : State) : State :=
  spqTaken w (updSpr s dc fun r => { r with waiting := r.waiting.eraseIdx i, nextId := r.nextId + 1 })

section
variable (hw : (getSpr s dc).waiting[i]? = some w)
include hw

theorem sprAccept_waits (h : sprAcceptable s dc i w = false) : sprAccept dc i s = s := by simp [sprAccept, hw, h]

theorem sprAccept_accepted (h : sprAcceptable s dc i w = true) (hr : sprRefusal s dc w = none) : sprAccept dc i s =
    sprStart dc (updSpr (sprTaken dc i w s) dc fun r => { r with seqs := r.seqs ++ [seqOfWait (getSpr s dc) w] }) := by
  unfold sprRefusal at hr
  simp only [sprAccept, hw, h, hr]
  rfl

theorem sprAccept_refused {c : Nat} (h : sprAcceptable s dc i w = true) (hc : w.core = some c) (hr : sprRefusal s dc w = some st) :
    sprAccept dc i s = coreEvent c fcSpringRefused ocSpq (sprReport dc (seqOfWait (getSpr s dc) w)
      (sprRecord (seqOfWait (getSpr s dc) w) st) (updSpr (sprTaken dc i w s) dc fun r => { r with refused := r.refused + 1 })) := by
  unfold sprRefusal at hr
  simp only [sprAccept, hw, h, hr]
  rw [hc]
  rfl

end

/-! ### Permits (R214, R225, R226) -/

theorem exec_sprGrant (ha : awake s = true) : exec (.springPermitGrant dc d) s = .next (ofPackage s (sprGrant dc d s)) := live_awake ha _

theorem exec_sprResume (ha : awake s = true) : exec (.springStepResume dc d) s = .next (updSpr s dc fun r => { r with
    running := mapIf (fun t => t.mdie == d && t.suspended) (fun t => { t with suspended := false }) r.running }) :=
  (live_awake ha _).trans (congrArg _ (ofPackage_updSpr _))

/-- The step that the permit of a column and memory die goes to next, if one is ready (R214). -/
def nextReady (s : State) (dc d : Nat) : Option SprStep :=
  ((List.range 4).map fun i => (smapGet 3 (getSpr s dc).lastUnit d + 1 + i) % 4).findSome? fun u =>
    (getSpr s dc).seqs.findSome? (readyStep s dc d u)

section
variable (hr : ∀ t ∈ (getSpr s dc).running, t.mdie ≠ d) (hm : (getMDie s (dcDie dc) d).withheld = false) (hd : d < s.mdies)
include hr hm hd

/-- A permit that is free can be granted. -/
theorem permit_free :
    ((getSpr s dc).running.any (fun t => t.mdie == d) || (getMDie s (dcDie dc) d).withheld || decide (s.mdies ≤ d)) = false := by
  have idle : (getSpr s dc).running.any (fun t => t.mdie == d) = false := by simpa using hr
  rw [idle, hm, decide_eq_false (Nat.not_le.2 hd)]
  rfl

theorem sprGrant_idle (h : nextReady s dc d = none) : sprGrant dc d s = s := by
  unfold nextReady at h
  simp only [sprGrant, permit_free hr hm hd, h]
  rfl

theorem sprGrant_kept (h : nextReady s dc d = some t) (hw : accessWaits s dc t = true) : sprGrant dc d s = s := by
  unfold nextReady at h
  simp only [sprGrant, permit_free hr hm hd, h, hw]
  rfl

theorem sprGrant_granted (h : nextReady s dc d = some t) (hw : accessWaits s dc t = false) : sprGrant dc d s = updSpr s dc fun r =>
    { r with running := r.running ++ [t], lastUnit := smapSet 3 r.lastUnit d t.unit } := by
  unfold nextReady at h
  simp only [sprGrant, permit_free hr hm hd, h, hw]
  rfl

end

/-! ### The end of a step (R223, R224) -/

theorem exec_sprStepEnd (ha : awake s = true) : exec (.springStepEnd dc d) s = .next (ofPackage s (sprStepEnd dc d s)) := live_awake ha _

/-- A column whose step of a memory die ends: the step counted, its banks and the permit released. -/
def stepReleased (dc d : Nat) (s : State) : State :=
  countAct dc (akSpring d) 1 (updSpr s dc fun r => { r with running := r.running.filter fun y => y.mdie != d })

/-- A sequence `q` after a step with status `e` whose work made `q1` of it. -/
def seqStepped (q q1 : SprSeq) (e : Nat) : SprSeq := { q1 with steps := q.steps + if e = 0 then 1 else 0 }

/-- The queue once the sequence stands in it as the step has left it. -/
def queueStepped (dc : Nat) (q q1 : SprSeq) (e : Nat) (x : State) : State :=
  updSpr x dc fun r => { r with
    steps := if e = 0 then r.steps + 1 else r.steps, seqs := r.seqs.map fun z => if z.id = q.id then seqStepped q q1 e else z }

section
variable (ht : (getSpr s dc).running.find? (fun t => t.mdie == d && !t.suspended) = some t)
  (hq : (getSpr s dc).seqs.find? (fun q => q.id == t.seq) = some q) (hx : stepWork dc t q (stepReleased dc d s) = (x, e, q1))
include ht hq hx

theorem sprStepEnd_ending (h : e ≠ 0 ∨ q.ending ≠ none) : sprStepEnd dc d s = sprEnding dc q.id e (queueStepped dc q q1 e x) := by
  unfold stepReleased at hx
  by_cases he : e = 0
  · have ending : q.ending.isSome = true := Option.isSome_iff_ne_none.2 (h.resolve_left (not_not_intro he))
    simp [sprStepEnd, ht, hq, hx, he, ending, queueStepped, seqStepped, bit]
  · simp [sprStepEnd, ht, hq, hx, he, queueStepped, seqStepped, bit]

/-- A step without a failure in a sequence that goes on: the last one finishes it (R223). -/
theorem sprStepEnd_done (he : e = 0) (hn : q.ending = none) : sprStepEnd dc d s =
    if seqComplete (seqStepped q q1 e) then seqFinish dc (seqStepped q q1 e) (queueStepped dc q q1 e x) else queueStepped dc q q1 e x := by
  subst he
  unfold stepReleased at hx
  simp [sprStepEnd, ht, hq, hx, hn, queueStepped, seqStepped, bit]

end

/-! ### The end of a sequence (R223, R238) -/

/-- The sequences in a column's queue, by their numbers. -/
def seqIds (s : State) (dc : Nat) : List Nat := (getSpr s dc).seqs.map (·.id)

theorem startedSeqs_ids (ok : Bool) (before qs : List SprSeq) : (startedSeqs ok before qs).map (·.id) = qs.map (·.id) := by
  induction qs generalizing ok before with
  | nil => rfl
  | cons q qs ih => exact congrArg (q.id :: ·) (ih ..)

theorem sprStart_running : (getSpr (sprStart dc s) dc).running = (getSpr s dc).running := by simp [sprStart, apply_ite]

theorem sprStart_seqIds : seqIds (sprStart dc s) dc = seqIds s dc := by simp [seqIds, sprStart, apply_ite, startedSeqs_ids]

@[simp] theorem getSpr_sprEvent (q : SprSeq) (rec : List Byte) : getSpr (sprEvent dc q rec s) i = getSpr s i := getSpr_reportFrom ..

/-- The report of a sequence's end changes no spring queue. -/
@[simp] theorem getSpr_sprReport (q : SprSeq) (rec : List Byte) : getSpr (sprReport dc q rec s) i = getSpr s i := by
  unfold sprReport
  split
  · simp
  · split
    · simp
    · simp

/-- A sequence that ends leaves with its steps. -/
theorem sprEnd_running : (getSpr (sprEnd dc q st s) dc).running = (getSpr s dc).running.filter fun t => t.seq != q.id := by
  simp [sprEnd, sprStart_running, sprDrop, apply_ite]

theorem sprEnd_seqIds : seqIds (sprEnd dc q st s) dc = (seqIds s dc).filter (· != q.id) := by
  rw [sprEnd, sprStart_seqIds]
  simp [seqIds, sprDrop, List.filter_map, Function.comp_def]

/-- A column whose sequence is to end: its suspended steps are gone, and the first status stands. -/
def seqMarked (dc id st : Nat) (s : State) : State :=
  updSpr s dc fun r => { r with
    running := r.running.filter fun t => t.seq != id || !t.suspended
    seqs := mapIf (fun y => y.id == id) (fun y => { y with ending := some (y.ending.getD st) }) r.seqs }

theorem seqMarked_running : (getSpr (seqMarked dc id st s) dc).running = (getSpr s dc).running.filter fun t => t.seq != id || !t.suspended := by
  simp [seqMarked]

theorem seqMarked_seqIds : seqIds (seqMarked dc id st s) dc = seqIds s dc := by
  simp only [seqIds, seqMarked, getSpr_updSpr_same, mapIf, List.map_map]
  refine List.map_congr_left fun y _ => ?_
  simp only [Function.comp_apply]
  split
  · rfl
  · rfl

/-- A sequence with a step that runs goes on to that step's end. -/
theorem sprEnding_runs (h : ∃ t ∈ (getSpr s dc).running, t.seq = id ∧ t.suspended = false) : sprEnding dc id st s = seqMarked dc id st s := by
  obtain ⟨t, ht, hseq, hsus⟩ := h
  refine if_pos (List.any_eq_true.2 ⟨t, ?_, by simp [hseq]⟩)
  change t ∈ (getSpr (seqMarked dc id st s) dc).running
  rw [seqMarked_running]
  exact List.mem_filter.2 ⟨ht, by simp [hsus]⟩

section
variable (h : ∀ t ∈ (getSpr s dc).running, t.seq = id → t.suspended = true)
include h

/-- No step of the sequence is left once its suspended ones are gone. -/
theorem seqMarked_idle : ((getSpr (seqMarked dc id st s) dc).running.any fun t => t.seq == id) = false := by
  rw [seqMarked_running, List.any_eq_false]
  intro t ht hseq
  obtain ⟨hmem, hkept⟩ := List.mem_filter.1 ht
  have same : t.seq = id := by simpa using hseq
  simp [same, h t hmem same] at hkept

/-- A sequence with no step that runs ends at once, if it stands in the queue. -/
theorem sprEnding_found (hq : (getSpr (seqMarked dc id st s) dc).seqs.find? (fun y => y.id == id) = some q) :
    sprEnding dc id st s = sprEnd dc q (q.ending.getD st) (seqMarked dc id st s) := by
  have idle := seqMarked_idle (st := st) h
  unfold seqMarked at *
  simp only [sprEnding, idle, hq]
  rfl

theorem sprEnding_absent (hq : (getSpr (seqMarked dc id st s) dc).seqs.find? (fun y => y.id == id) = none) :
    sprEnding dc id st s = seqMarked dc id st s := by
  have idle := seqMarked_idle (st := st) h
  unfold seqMarked at *
  simp only [sprEnding, idle, hq]
  rfl

/-- Of a sequence that ends nothing is left in the queue. -/
theorem sprEnding_seqIds : seqIds (sprEnding dc id st s) dc = (seqIds s dc).filter (· != id) := by
  cases hq : (getSpr (seqMarked dc id st s) dc).seqs.find? (fun y => y.id == id) with
  | none =>
    rw [sprEnding_absent h hq, ← seqMarked_seqIds (s := s) (id := id) (st := st), eq_comm, List.filter_eq_self, seqIds]
    simpa using hq
  | some q =>
    have same : q.id = id := by simpa using List.find?_some hq
    rw [sprEnding_found h hq, sprEnd_seqIds, seqMarked_seqIds, same]

end

/-- An end of a sequence starts no step. -/
theorem sprEnding_steps_nil (h : (getSpr s dc).running = []) : (getSpr (sprEnding dc id st s) dc).running = [] := by
  have none_runs : ∀ t ∈ (getSpr s dc).running, t.seq = id → t.suspended = true := by simp [h]
  cases hq : (getSpr (seqMarked dc id st s) dc).seqs.find? (fun y => y.id == id) with
  | none => rw [sprEnding_absent none_runs hq, seqMarked_running, h, List.filter_nil]
  | some q => rw [sprEnding_found none_runs hq, sprEnd_running, seqMarked_running, h, List.filter_nil, List.filter_nil]

/-- Sequences that end one after another where no step is in progress are all gone. -/
theorem forEach_sprEnding_seqIds (h : (getSpr s dc).running = []) (qs : List SprSeq) :
    seqIds (forEach qs (fun s q => sprEnding dc q.id st s) s) dc = (seqIds s dc).filter fun n => !(qs.map (·.id)).contains n := by
  induction qs generalizing s with
  | nil => exact (List.filter_eq_self.2 fun _ _ => rfl).symm
  | cons q qs ih =>
    refine (ih (sprEnding_steps_nil h)).trans ?_
    rw [sprEnding_seqIds (by simp [h]), List.filter_filter]
    refine List.filter_congr fun n _ => ?_
    rw [List.map_cons, List.contains_cons, Bool.not_or, Bool.and_comm]
    rfl

/-! ### Meridian's registers (R237, R238) -/

theorem exec_sprSubmit (ha : awake s = true) (hw : cluWritable s dc = true) (pa : Nat) :
    exec (.sprSubmit dc pa) s = .next (ofPackage s (sprSubmit dc pa s)) := by
  change live s (if cluWritable s dc then sprSubmit dc pa s else s) = _
  rw [live_awake ha, hw, if_pos rfl]

theorem exec_sprSubmit_off (hw : cluWritable s dc = false) (pa : Nat) : exec (.sprSubmit dc pa) s = .next s := by
  change live s (if cluWritable s dc then sprSubmit dc pa s else s) = _
  rw [hw, if_neg Bool.false_ne_true, live_self]

theorem exec_sprAbort (ha : awake s = true) (hw : cluWritable s dc = true) :
    exec (.sprCtrlAbort dc) s = .next (ofPackage s (sprAbort dc (fun _ => true) s)) := by
  change live s (if cluWritable s dc then sprAbort dc (fun _ => true) s else s) = _
  rw [live_awake ha, hw, if_pos rfl]

theorem exec_sprAbort_off (hw : cluWritable s dc = false) : exec (.sprCtrlAbort dc) s = .next s := by
  change live s (if cluWritable s dc then sprAbort dc (fun _ => true) s else s) = _
  rw [hw, if_neg Bool.false_ne_true, live_self]

/-- A descriptor that lies in the cluster's own slice and is read without an error waits for its acceptance. -/
theorem sprSubmit_queues {pa l l' : Nat} {m : State} {bs : List Byte} (hpa : pa < 2 ^ 48) (hl : paLoc s pa = some l)
    (hl' : paLoc s (pa + 127) = some l') (ht : locIsTarn l = true) (hd : locDc l = dc) (ht' : locIsTarn l' = true) (hd' : locDc l' = dc)
    (hm : memLoad l 128 5 s = (m, none, bs)) : sprSubmit dc pa s = sprQueue dc bs (pa + 16) m := by
  unfold sprSubmit
  rw [Nat.mod_eq_of_lt hpa, hl, hl']
  simp [ht, hd, ht', hd', hm]

/-- An abort of a queue with no step in progress empties it. -/
theorem sprAbort_empties (h : (getSpr s dc).running = []) : (getSpr (sprAbort dc (fun _ => true) s) dc).seqs = [] := by
  have gone : seqIds (sprAbort dc (fun _ => true) s) dc = [] := by
    refine (forEach_sprEnding_seqIds h _).trans (List.filter_eq_nil_iff.2 fun n hn => ?_)
    simpa [seqIds] using hn
  exact List.map_eq_nil_iff.1 gone

end Sys2Proof.Machine

namespace Sys2Proof.Machine

/-- Settles O28: a submission waits, is accepted behind the others or is refused to its core, by its turn and the causes of a refusal. -/
theorem springAccepts : Obligations.SpringAccepts := by
  intro s dc i w ha hw
  refine ⟨fun h => ?_, ?_⟩
  · rw [exec_sprAccept ha, sprAccept_waits hw h, ofPackage_self]
  · rintro h u rfl
    refine ⟨fun hf he hs hp hd => ?_, fun c st hc hr => ?_⟩
    · rw [exec_sprAccept ha, sprAccept_accepted hw h (sprRefusal_none hf he hs hp hd)]
      rfl
    · have refused : sprRefusal s dc w = some st := by
        have core : w.core.isNone = false := by rw [hc]; rfl
        rcases hr with ⟨hf, rfl⟩ | ⟨hf, rfl, cause⟩
        · exact sprRefusal_desc (by rwa [core])
        · exact sprRefusal_unavailable (by rwa [core]) cause
      rw [exec_sprAccept ha, sprAccept_refused hw h hc refused]
      rfl

/-- Settles O29: the permit, the resumption and the end of a step, the end of its sequence by its steps in progress, and Meridian's two writes. -/
theorem springRuns : Obligations.SpringRuns := by
  refine ⟨fun s dc d ha => ⟨?grant, exec_sprResume ha, ?stepEnd, fun id st => ⟨sprEnding_runs, ?ended⟩⟩, fun s dc ha => ⟨?submit, ?abort, ?off⟩⟩
  case grant =>
    rintro hr hm hd o rfl
    refine ⟨fun h => ?_, fun t h hw => ?_, fun t h hw => ?_⟩
    · rw [exec_sprGrant ha, sprGrant_idle hr hm hd h, ofPackage_self]
    · rw [exec_sprGrant ha, sprGrant_kept hr hm hd h hw, ofPackage_self]
    · rw [exec_sprGrant ha, sprGrant_granted hr hm hd h hw, ofPackage_updSpr]
  case stepEnd =>
    rintro t q ht hq x e q1 hx q2 y rfl rfl
    refine ⟨fun h => ?_, fun he hn hc => ?_, fun he hn hc => ?_⟩
    · rw [exec_sprStepEnd ha, sprStepEnd_ending ht hq hx h]
      rfl
    · rw [exec_sprStepEnd ha, (sprStepEnd_done ht hq hx he hn).trans (if_pos hc)]
      rfl
    · rw [exec_sprStepEnd ha, (sprStepEnd_done ht hq hx he hn).trans (if_neg (ne_true_of_eq_false hc))]
      rfl
  case ended =>
    intro h z hz hid
    have left : z.id ∈ (seqIds s dc).filter (· != id) := sprEnding_seqIds (st := st) h ▸ List.mem_map_of_mem hz
    simp [hid] at left
  case submit =>
    intro hw pa l l' m bs hpa hl hl' ht hd ht' hd' _ hm
    rw [exec_sprSubmit ha hw, sprSubmit_queues hpa hl hl' ht hd ht' hd' hm]
    rfl
  case abort => exact fun hw => ⟨exec_sprAbort ha hw, sprAbort_empties⟩
  case off => exact fun hw => ⟨exec_sprSubmit_off hw, exec_sprAbort_off hw⟩

end Sys2Proof.Machine
end

section
/-! PROOFS. A package reset (R404): what it keeps of each stack's registers held on VAUX (R271, R474) is said of the tables' entries, through the one fact
that a table changed entry by entry reads as the change of what it read. -/

namespace Sys2Proof.Machine

/-! ### Tables changed entry by entry -/

section
variable {α : Type} {d : α} {f : α → α} {m : SMap α}

/-- The bound of a table in order is below each of its keys. -/
theorem lt_of_smapSorted_some {l k : Nat} (h : smapSorted (some l) m = true) (hk : k ∈ m.map Prod.fst) : l < k := by
  induction m generalizing l with
  | nil => exact absurd hk List.not_mem_nil
  | cons e m ih =>
    obtain ⟨above, rest⟩ := (Bool.and_eq_true ..).mp h
    have head : l < e.1 := of_decide_eq_true above
    rcases List.mem_cons.mp hk with rfl | later
    · exact head
    · exact Nat.lt_trans head (ih rest later)

/-- The keys of a table in order rise. -/
theorem smapSorted_keys_pairwise {lo : Option Nat} (h : smapSorted lo m = true) : (m.map Prod.fst).Pairwise (· < ·) := by
  induction m generalizing lo with
  | nil => exact .nil
  | cons e m ih =>
    obtain ⟨-, rest⟩ := (Bool.and_eq_true ..).mp h
    exact .cons (fun _ => lt_of_smapSorted_some rest) (ih rest)

variable [DecidableEq α]

/-- No key stands twice in a canonical table. -/
theorem smapWf_keys_nodup (h : smapWf d m = true) : (m.map Prod.fst).Nodup := by
  obtain ⟨sorted, -⟩ := (Bool.and_eq_true ..).mp h
  exact (smapSorted_keys_pairwise sorted).imp Nat.ne_of_lt

/-- Entries written into a table leave alone the keys that they do not name. -/
theorem smapGet_foldl_set_of_notMem (acc : SMap α) {k : Nat} (hk : k ∉ m.map Prod.fst) :
    smapGet d (m.foldl (fun acc e => smapSet d acc e.1 (f e.2)) acc) k = smapGet d acc k := by
  induction m generalizing acc with
  | nil => rfl
  | cons e m ih =>
    obtain ⟨hne, hk⟩ := not_or.mp (mt List.mem_cons.mpr hk)
    exact (ih _ hk).trans (smapGet_set_ne _ _ _ _ _ hne)

/-- Entries under distinct keys, changed by `f` and written into a table that has nothing under `k`, read at `k` as the change of what they read. -/
theorem smapGet_foldl_set (hf : f d = d) (distinct : (m.map Prod.fst).Nodup) {k : Nat} {acc : SMap α} (free : smapGet d acc k = d) :
    smapGet d (m.foldl (fun acc e => smapSet d acc e.1 (f e.2)) acc) k = f (smapGet d m k) := by
  induction m generalizing acc with
  | nil => exact free.trans hf.symm
  | cons e m ih =>
    obtain ⟨k', v⟩ := e
    obtain ⟨notLater, distinct⟩ := List.nodup_cons.mp distinct
    by_cases h : k = k'
    · subst h
      simpa [smapGet] using smapGet_foldl_set_of_notMem (d := d) (f := f) (smapSet d acc k (f v)) notLater
    · have free' : smapGet d (smapSet d acc k' (f v)) k = d := (smapGet_set_ne _ _ _ _ _ h).trans free
      simpa [smapGet, h] using ih distinct free'

/-- A canonical table changed entry by entry, by a change that keeps the default, reads as the change of what it read. -/
theorem smapGet_map (hf : f d = d) (h : smapWf d m = true) (k : Nat) : smapGet d (smapMap d f m) k = f (smapGet d m k) :=
  smapGet_foldl_set hf (smapWf_keys_nodup h) rfl

end

/-! ### What a package reset leaves -/

section
variable {s : State}

theorem getStk_packageReset (h : smapWf ({} : Stack) s.stks = true) (k : Nat) : getStk (packageReset s) k = keptStack (getStk s k) :=
  smapGet_map rfl h k

theorem getMDie_packageReset (h : smapWf ({} : Stack) s.stks = true) {k : Nat} (hk : smapWf ({} : MDie) (getStk s k).mdie = true) (d : Nat) :
    getMDie (packageReset s) k d = keptMDie (getMDie s k d) := by
  unfold getMDie
  rw [getStk_packageReset h]
  exact smapGet_map rfl hk d

end

/-- Settles O60: outside the stacks each field is its reset value or the old one by the definition of the reset (R404, R458); a stack and a memory die
keep what VAUX holds (`getStk_packageReset`, `getMDie_packageReset`). -/
theorem packageResetLeaves : Obligations.PackageReset := by
  rintro s _ rfl
  refine ⟨?cleared, ?kept, fun stacksWf k => ?onVaux⟩
  case cleared => and_intros <;> rfl
  case kept => and_intros <;> rfl
  case onVaux =>
    rw [getStk_packageReset stacksWf]
    refine ⟨rfl, rfl, rfl, rfl, rfl, rfl, rfl, rfl, fun diesWf d => ?_⟩
    rw [getMDie_packageReset stacksWf diesWf]
    exact ⟨rfl, rfl⟩

end Sys2Proof.Machine
end
